-- ==== Sys2Proof/Word.lean ====
section
/-! DEFINITION. The two word types of the core (spec/00_scope.md R6, R9): the 8-bit byte of registers, opcodes,
immediates and port numbers, and the 16-bit word of `PC`, `SP`, the paired views and memory addresses.
No value of the core is signed and no instruction sign-extends (R9). -/

namespace Sys2Proof

/-- A `u8` of R9: register contents, an opcode byte, an immediate byte, a port number, one memory cell. -/
abbrev Byte := BitVec 8

/-- A `u16` of R9: `PC`, `SP`, a paired view, a 16-bit immediate, a memory address. -/
abbrev Word := BitVec 16

end Sys2Proof
end

