-- ==== Sys2Proof/Machine/Bits.lean ====
section
/-! DEFINITION. The halves of a 16-bit word and the word two bytes make (spec/00_scope.md R8, spec/10_state.md R19).
Which half lies at the lower address is decided once, in Machine/Memory.lean (spec/20_memory.md R43). -/

namespace Sys2Proof

/-- `v[7:0]` of a 16-bit value. -/
def loByte (v : Word) : Byte := v.extractLsb' 0 8

/-- `v[15:8]` of a 16-bit value. -/
def hiByte (v : Word) : Byte := v.extractLsb' 8 8

/-- `(hi << 8) | lo` (R8). -/
def mkWord (hi lo : Byte) : Word := hi ++ lo

/-- A flag in arithmetic: "`true` is 1 and `false` is 0" (R9). -/
def flagNat (b : Bool) : Nat := if b then 1 else 0

end Sys2Proof
end

