-- ==== Sys2Proof/Config.lean ====
section
/-! DEFINITION. The parameters of the core (spec/00_scope.md R7) as plain data, the events of the port-I/O
capability, and the one free value: the byte the environment answers to an `IN` (spec/44_io.md R122). -/

namespace Sys2Proof

/-- The parameters R7 says "the model takes ... as arguments".  They are fixed for the life of an instance; the state
carries them so that every statement about a state holds for every choice of them (log entry 1).  `IMAGE` is an
argument of construction (`Machine.construct`), `INPUT` is `Config.portInput`. -/
structure Params where
  /-- `Q`, the instruction quota of one frame (spec/60_exceptions.md R142). -/
  quota : Nat
  /-- Opcode bytes taken out of the default `IMPLEMENTED`: "A model may take a smaller `IMPLEMENTED` (every removed
  byte then crashes)" (spec/30_encoding.md R66). -/
  removedOpcodes : List Byte
  /-- `P_SBB_ZERO_OPERAND_BORROW` (spec/43_arith_logic.md R92). -/
  sbbZeroOperandBorrow : Bool
  /-- `P_DAA_MASK_INTERMEDIATE` (spec/43_arith_logic.md R112). -/
  daaMaskIntermediate : Bool
  /-- `P_CMC_COMPLEMENTS` (spec/43_arith_logic.md R119). -/
  cmcComplements : Bool
  deriving DecidableEq, Repr

/-- `Q >= 2`, "so that `Q div 2 >= 1`" (R142). -/
abbrev Params.wf (p : Params) : Prop := 2 ≤ p.quota

/-- One call of the port-I/O capability (R122): `output(port, value)`, or `input(port)` with the byte it returned. -/
inductive PortEvent where
  | output (port value : Byte)
  | input (port value : Byte)
  deriving DecidableEq, Repr

/-- FREE VALUE (log entry 4).  The byte the environment answers to `input(port)`: R122 makes `In` an oracle "which may
depend on the port and on all earlier `In` and `Out` calls but on nothing else in the core".  The first argument is
the list of all earlier calls, oldest first. -/
opaque Config.portInput : List PortEvent → Byte → Byte

end Sys2Proof
end

