-- ==== Sys2Proof/Machine/Parameters.lean ====
section
/-! DEFINITION. The default parameters (spec/00_scope.md R7) and the set `IMPLEMENTED` (spec/30_encoding.md R66). -/

namespace Sys2Proof

/-- The 23 bytes outside the default `IMPLEMENTED`: the first table of R66, row by row. -/
def undefinedOpcodes : List Byte :=
  [0x08, 0x10, 0x18, 0x20, 0x28, 0x30, 0x38]
    ++ [0xCB] ++ [0xD9] ++ [0xDD, 0xED, 0xFD]
    ++ [0x76]
    ++ [0xE2, 0xEA]
    ++ [0xE4, 0xEC, 0xF4, 0xFC]
    ++ [0xE0, 0xE8, 0xF0, 0xF8]

/-- `op in IMPLEMENTED` (R64, R66): the default set less the bytes this instance leaves out. -/
def Params.implements (p : Params) (op : Byte) : Bool :=
  !undefinedOpcodes.contains op && !p.removedOpcodes.contains op

/-- The defaults of R7's table: `Q = 4000`, the full default `IMPLEMENTED`, and the spec's readings D5, D7, D8. -/
def defaultParams : Params where
  quota := 4000
  removedOpcodes := []
  sbbZeroOperandBorrow := true
  daaMaskIntermediate := false
  cmcComplements := false

end Sys2Proof
end

