-- ==== Sys2Proof/Syntax.lean ====
section
/-! DEFINITION. The instructions of the core as syntax: one constructor of `Instr` for each mnemonic of
spec/opcode_table.json, in the table's order, its operands the fields of spec/30_encoding.md R55 to R61. -/

namespace Sys2Proof

/-- The 8-bit operand a 3-bit register code selects (R56): a register, or `m`, the byte at address `HL`. -/
inductive Operand8 where
  | b | c | d | e | h | l | m | a
  deriving DecidableEq, Repr

/-- The pair of LXI, INX, DCX and DAD (spec/10_state.md R21). -/
inductive RegPair where
  | bc | de | hl | sp
  deriving DecidableEq, Repr

/-- The pair of PUSH and POP (R21: `rp[3] = PSW` instead of `SP`). -/
inductive StackPair where
  | bc | de | hl | psw
  deriving DecidableEq, Repr

/-- The address pair of LDAX and STAX: "LDAX and STAX address `BC` or `DE`" (R61). -/
inductive IndirectPair where
  | bc | de
  deriving DecidableEq, Repr

/-- The six conditions that belong to implemented instructions (R58, spec/41_control_transfer.md R70). -/
inductive Cond where
  | nz | z | nc | c | p | m
  deriving DecidableEq, Repr

/-- The instructions, one constructor per mnemonic of spec/opcode_table.json.  `inp` is the table's `IN`; `invalid op`
stands for the table's `(invalid)` rows, an opcode byte that raises InvalidOpcode (spec/60_exceptions.md R139). -/
inductive Instr where
  | nop
  | lxi (rp : RegPair) (d16 : Word)
  | stax (rp : IndirectPair)
  | inx (rp : RegPair)
  | inr (r : Operand8)
  | dcr (r : Operand8)
  | mvi (r : Operand8) (d8 : Byte)
  | rlc
  | invalid (op : Byte)
  | dad (rp : RegPair)
  | ldax (rp : IndirectPair)
  | dcx (rp : RegPair)
  | rrc
  | ral
  | rar
  | shld (a16 : Word)
  | daa
  | lhld (a16 : Word)
  | cma
  | sta (a16 : Word)
  | stc
  | lda (a16 : Word)
  | cmc
  | mov (dst src : Operand8)
  | add (r : Operand8)
  | adc (r : Operand8)
  | sub (r : Operand8)
  | sbb (r : Operand8)
  | ana (r : Operand8)
  | xra (r : Operand8)
  | ora (r : Operand8)
  | cmp (r : Operand8)
  | rnz
  | pop (rp : StackPair)
  | jnz (a16 : Word)
  | jmp (a16 : Word)
  | cnz (a16 : Word)
  | push (rp : StackPair)
  | adi (d8 : Byte)
  | rst (n : BitVec 3)
  | rz
  | ret
  | jz (a16 : Word)
  | cz (a16 : Word)
  | call (a16 : Word)
  | aci (d8 : Byte)
  | rnc
  | jnc (a16 : Word)
  | out (port : Byte)
  | cnc (a16 : Word)
  | sui (d8 : Byte)
  | rc
  | jc (a16 : Word)
  | inp (port : Byte)
  | cc (a16 : Word)
  | sbi (d8 : Byte)
  | xthl
  | ani (d8 : Byte)
  | pchl
  | xchg
  | xri (d8 : Byte)
  | jp (a16 : Word)
  | di
  | ori (d8 : Byte)
  | sphl
  | jm (a16 : Word)
  | ei
  | cpi (d8 : Byte)
  deriving DecidableEq, Repr

end Sys2Proof
end

