-- ==== Sys2Proof/WellFormed.lean ====
section
/-! DEFINITION. Which terms of `Instr` are instructions of the opcode table.  Every operand type but two admits exactly
the values its field admits; the two checks are the excluded MOV form and the operand of `invalid`. -/

namespace Sys2Proof

/-- The well-formedness check: MOV's operands are "not both M" (spec/45_data_movement.md R126; the byte 0x76 is
invalid), and `invalid` carries a byte of R66's table of bytes outside `IMPLEMENTED`. -/
def wellFormed : Instr → Bool
  | .mov dst src => !(dst == .m && src == .m)
  | .invalid op => undefinedOpcodes.contains op
  | .nop | .lxi _ _ | .stax _ | .inx _ | .inr _ | .dcr _ | .mvi _ _ | .rlc | .dad _ | .ldax _ | .dcx _ | .rrc
  | .ral | .rar | .shld _ | .daa | .lhld _ | .cma | .sta _ | .stc | .lda _ | .cmc | .add _ | .adc _ | .sub _
  | .sbb _ | .ana _ | .xra _ | .ora _ | .cmp _ | .rnz | .pop _ | .jnz _ | .jmp _ | .cnz _ | .push _ | .adi _
  | .rst _ | .rz | .ret | .jz _ | .cz _ | .call _ | .aci _ | .rnc | .jnc _ | .out _ | .cnc _ | .sui _ | .rc
  | .jc _ | .inp _ | .cc _ | .sbi _ | .xthl | .ani _ | .pchl | .xchg | .xri _ | .jp _ | .di | .ori _ | .sphl
  | .jm _ | .ei | .cpi _ => true

/-- A well-formed instruction. -/
abbrev WellFormed (i : Instr) : Prop := wellFormed i = true

end Sys2Proof
end

