-- ==== Sys2Proof/Decode.lean ====
section
/-! DEFINITION. From bytes to instructions and back (spec/30_encoding.md).  The decoder reads the fields of R55 from the
opcode byte and dispatches on the bit patterns of section 5; the encoder below it writes each instruction's bytes from
the `Encoding:` lines of the instruction rules. -/

namespace Sys2Proof

/-! ### Field codes -/

/-- The 3-bit register code of R56. -/
def Operand8.code : Operand8 → Nat
  | .b => 0 | .c => 1 | .d => 2 | .e => 3 | .h => 4 | .l => 5 | .m => 6 | .a => 7

/-- The operand a 3-bit register code selects (R56). -/
def Operand8.ofCode : Nat → Operand8
  | 0 => .b | 1 => .c | 2 => .d | 3 => .e | 4 => .h | 5 => .l | 6 => .m | _ => .a

/-- The 2-bit pair code of LXI, INX, DCX and DAD (spec/10_state.md R21). -/
def RegPair.code : RegPair → Nat
  | .bc => 0 | .de => 1 | .hl => 2 | .sp => 3

def RegPair.ofCode : Nat → RegPair
  | 0 => .bc | 1 => .de | 2 => .hl | _ => .sp

/-- The 2-bit pair code of PUSH and POP (R21). -/
def StackPair.code : StackPair → Nat
  | .bc => 0 | .de => 1 | .hl => 2 | .psw => 3

def StackPair.ofCode : Nat → StackPair
  | 0 => .bc | 1 => .de | 2 => .hl | _ => .psw

/-- The bit `p` of LDAX and STAX: 0 is B, 1 is D (section 5 of spec/30_encoding.md). -/
def IndirectPair.code : IndirectPair → Nat
  | .bc => 0 | .de => 1

/-! ### Decoding -/

/-- The group `00 yyy zzz` (section 5): NOP, the 16-bit and memory loads, INR, DCR, MVI, the rotates and flag
operations.  Columns `zzz = 001` and `011` carry `rp = yyy[2:1]`. -/
def decodeGroup0 (op : Byte) (y z : Nat) (lo hi : Byte) : Instr :=
  match z with
  | 0 => if y = 0 then .nop else .invalid op
  | 1 => if y % 2 = 0 then .lxi (RegPair.ofCode (y / 2)) (mkWord hi lo) else .dad (RegPair.ofCode (y / 2))
  | 2 =>
    match y with
    | 0 => .stax .bc
    | 1 => .ldax .bc
    | 2 => .stax .de
    | 3 => .ldax .de
    | 4 => .shld (mkWord hi lo)
    | 5 => .lhld (mkWord hi lo)
    | 6 => .sta (mkWord hi lo)
    | _ => .lda (mkWord hi lo)
  | 3 => if y % 2 = 0 then .inx (RegPair.ofCode (y / 2)) else .dcx (RegPair.ofCode (y / 2))
  | 4 => .inr (Operand8.ofCode y)
  | 5 => .dcr (Operand8.ofCode y)
  | 6 => .mvi (Operand8.ofCode y) lo
  | _ =>
    match y with
    | 0 => .rlc
    | 1 => .rrc
    | 2 => .ral
    | 3 => .rar
    | 4 => .daa
    | 5 => .cma
    | 6 => .stc
    | _ => .cmc

/-- The group `01 ddd sss`: MOV, "except `01 110 110`" (0x76, invalid). -/
def decodeGroup1 (op : Byte) (y z : Nat) : Instr :=
  if y = 6 ∧ z = 6 then .invalid op else .mov (Operand8.ofCode y) (Operand8.ofCode z)

/-- The group `10 alu sss` (R57). -/
def decodeGroup2 (y z : Nat) : Instr :=
  match y with
  | 0 => .add (Operand8.ofCode z)
  | 1 => .adc (Operand8.ofCode z)
  | 2 => .sub (Operand8.ofCode z)
  | 3 => .sbb (Operand8.ofCode z)
  | 4 => .ana (Operand8.ofCode z)
  | 5 => .xra (Operand8.ofCode z)
  | 6 => .ora (Operand8.ofCode z)
  | _ => .cmp (Operand8.ofCode z)

/-- The group `11 yyy zzz`: returns, jumps, calls, the stack, the immediate ALU forms, RST. -/
def decodeGroup3 (op : Byte) (y z : Nat) (lo hi : Byte) : Instr :=
  match z with
  | 0 =>
    match y with
    | 0 => .rnz
    | 1 => .rz
    | 2 => .rnc
    | 3 => .rc
    | _ => .invalid op
  | 1 =>
    if y % 2 = 0 then .pop (StackPair.ofCode (y / 2))
    else
      match y with
      | 1 => .ret
      | 5 => .pchl
      | 7 => .sphl
      | _ => .invalid op
  | 2 =>
    match y with
    | 0 => .jnz (mkWord hi lo)
    | 1 => .jz (mkWord hi lo)
    | 2 => .jnc (mkWord hi lo)
    | 3 => .jc (mkWord hi lo)
    | 6 => .jp (mkWord hi lo)
    | 7 => .jm (mkWord hi lo)
    | _ => .invalid op
  | 3 =>
    match y with
    | 0 => .jmp (mkWord hi lo)
    | 2 => .out lo
    | 3 => .inp lo
    | 4 => .xthl
    | 5 => .xchg
    | 6 => .di
    | 7 => .ei
    | _ => .invalid op
  | 4 =>
    match y with
    | 0 => .cnz (mkWord hi lo)
    | 1 => .cz (mkWord hi lo)
    | 2 => .cnc (mkWord hi lo)
    | 3 => .cc (mkWord hi lo)
    | _ => .invalid op
  | 5 =>
    if y % 2 = 0 then .push (StackPair.ofCode (y / 2))
    else if y = 1 then .call (mkWord hi lo)
    else .invalid op
  | 6 =>
    match y with
    | 0 => .adi lo
    | 1 => .aci lo
    | 2 => .sui lo
    | 3 => .sbi lo
    | 4 => .ani lo
    | 5 => .xri lo
    | 6 => .ori lo
    | _ => .cpi lo
  | _ => .rst (BitVec.ofNat 3 y)

/-- The total dispatch of R65: "a total mapping from all 256 possible opcode byte values to a behavior".  `lo` and `hi`
are the bytes after the opcode in address order; a format that has no such byte does not look at it (R54). -/
def decodeOpcode (op lo hi : Byte) : Instr :=
  let y := op.toNat / 8 % 8
  let z := op.toNat % 8
  match op.toNat / 64 with
  | 0 => decodeGroup0 op y z lo hi
  | 1 => decodeGroup1 op y z
  | 2 => decodeGroup2 y z
  | _ => decodeGroup3 op y z lo hi

/-- The length in bytes of an instruction: formats F1, F2, F3 of R54; an invalid opcode has length 1 (R68). -/
def Instr.length : Instr → Nat
  | .lxi _ _ | .shld _ | .lhld _ | .sta _ | .lda _ | .jnz _ | .jmp _ | .cnz _ | .jz _ | .cz _ | .call _ | .jnc _
  | .cnc _ | .jc _ | .cc _ | .jp _ | .jm _ => 3
  | .mvi _ _ | .adi _ | .aci _ | .out _ | .sui _ | .inp _ | .sbi _ | .ani _ | .xri _ | .ori _ | .cpi _ => 2
  | .nop | .stax _ | .inx _ | .inr _ | .dcr _ | .rlc | .invalid _ | .dad _ | .ldax _ | .dcx _ | .rrc | .ral | .rar
  | .daa | .cma | .stc | .cmc | .mov _ _ | .add _ | .adc _ | .sub _ | .sbb _ | .ana _ | .xra _ | .ora _ | .cmp _
  | .rnz | .pop _ | .push _ | .rst _ | .rz | .ret | .rnc | .rc | .xthl | .pchl | .xchg | .di | .sphl | .ei => 1

/-- "A decoder finds the length of an instruction from its opcode byte alone" (R68). -/
def opcodeLength (op : Byte) : Nat := (decodeOpcode op 0 0).length

/-- Why a list of bytes is no instruction. -/
inductive DecodeError where
  /-- There is no opcode byte. -/
  | noOpcode
  /-- The list ends before the immediate bytes the opcode `op` needs. -/
  | missingImmediate (op : Byte)
  deriving DecidableEq, Repr

/-- Decode the instruction at the head of a list of bytes, and give the bytes after it.  The machine itself always has
bytes to read (memory wraps), so only a list given by hand can be too short. -/
def decode : List Byte → Except DecodeError (Instr × List Byte)
  | [] => .error .noOpcode
  | op :: rest =>
    match opcodeLength op, rest with
    | 1, rest => .ok (decodeOpcode op 0 0, rest)
    | 2, lo :: rest => .ok (decodeOpcode op lo 0, rest)
    | 3, lo :: hi :: rest => .ok (decodeOpcode op lo hi, rest)
    | _, _ => .error (.missingImmediate op)

/-! ### Encoding -/

/-- Format F3 (R54): opcode, low byte, high byte. -/
def encodeF3 (op : Byte) (w : Word) : List Byte := [op, loByte w, hiByte w]

/-- The bytes of an instruction, each from the `Encoding:` line of its rule. -/
def encode : Instr → List Byte
  | .nop => [0x00]
  | .lxi rp d16 => encodeF3 (BitVec.ofNat 8 (0x01 + 16 * rp.code)) d16
  | .stax rp => [BitVec.ofNat 8 (0x02 + 16 * rp.code)]
  | .inx rp => [BitVec.ofNat 8 (0x03 + 16 * rp.code)]
  | .inr r => [BitVec.ofNat 8 (0x04 + 8 * r.code)]
  | .dcr r => [BitVec.ofNat 8 (0x05 + 8 * r.code)]
  | .mvi r d8 => [BitVec.ofNat 8 (0x06 + 8 * r.code), d8]
  | .rlc => [0x07]
  | .invalid op => [op]
  | .dad rp => [BitVec.ofNat 8 (0x09 + 16 * rp.code)]
  | .ldax rp => [BitVec.ofNat 8 (0x0A + 16 * rp.code)]
  | .dcx rp => [BitVec.ofNat 8 (0x0B + 16 * rp.code)]
  | .rrc => [0x0F]
  | .ral => [0x17]
  | .rar => [0x1F]
  | .shld a16 => encodeF3 0x22 a16
  | .daa => [0x27]
  | .lhld a16 => encodeF3 0x2A a16
  | .cma => [0x2F]
  | .sta a16 => encodeF3 0x32 a16
  | .stc => [0x37]
  | .lda a16 => encodeF3 0x3A a16
  | .cmc => [0x3F]
  | .mov dst src => [BitVec.ofNat 8 (0x40 + 8 * dst.code + src.code)]
  | .add r => [BitVec.ofNat 8 (0x80 + r.code)]
  | .adc r => [BitVec.ofNat 8 (0x88 + r.code)]
  | .sub r => [BitVec.ofNat 8 (0x90 + r.code)]
  | .sbb r => [BitVec.ofNat 8 (0x98 + r.code)]
  | .ana r => [BitVec.ofNat 8 (0xA0 + r.code)]
  | .xra r => [BitVec.ofNat 8 (0xA8 + r.code)]
  | .ora r => [BitVec.ofNat 8 (0xB0 + r.code)]
  | .cmp r => [BitVec.ofNat 8 (0xB8 + r.code)]
  | .rnz => [0xC0]
  | .pop rp => [BitVec.ofNat 8 (0xC1 + 16 * rp.code)]
  | .jnz a16 => encodeF3 0xC2 a16
  | .jmp a16 => encodeF3 0xC3 a16
  | .cnz a16 => encodeF3 0xC4 a16
  | .push rp => [BitVec.ofNat 8 (0xC5 + 16 * rp.code)]
  | .adi d8 => [0xC6, d8]
  | .rst n => [BitVec.ofNat 8 (0xC7 + 8 * n.toNat)]
  | .rz => [0xC8]
  | .ret => [0xC9]
  | .jz a16 => encodeF3 0xCA a16
  | .cz a16 => encodeF3 0xCC a16
  | .call a16 => encodeF3 0xCD a16
  | .aci d8 => [0xCE, d8]
  | .rnc => [0xD0]
  | .jnc a16 => encodeF3 0xD2 a16
  | .out port => [0xD3, port]
  | .cnc a16 => encodeF3 0xD4 a16
  | .sui d8 => [0xD6, d8]
  | .rc => [0xD8]
  | .jc a16 => encodeF3 0xDA a16
  | .inp port => [0xDB, port]
  | .cc a16 => encodeF3 0xDC a16
  | .sbi d8 => [0xDE, d8]
  | .xthl => [0xE3]
  | .ani d8 => [0xE6, d8]
  | .pchl => [0xE9]
  | .xchg => [0xEB]
  | .xri d8 => [0xEE, d8]
  | .jp a16 => encodeF3 0xF2 a16
  | .di => [0xF3]
  | .ori d8 => [0xF6, d8]
  | .sphl => [0xF9]
  | .jm a16 => encodeF3 0xFA a16
  | .ei => [0xFB]
  | .cpi d8 => [0xFE, d8]

/-! ### Table words -/

/-- The three bytes (the longest instruction) of the table word `w`: its first byte in bits 7..0, and every bit above
`nbits` zero. -/
def tableWordBytes (nbits w : Nat) : List Byte :=
  let v := w % 2 ^ nbits
  [BitVec.ofNat 8 v, BitVec.ofNat 8 (v / 256), BitVec.ofNat 8 (v / 65536)]

/-- The instruction the decoder reads from an opcode-table word. -/
def decodeTableWord (nbits w : Nat) : Option Instr :=
  match decode (tableWordBytes nbits w) with
  | .ok (i, _) => some i
  | .error _ => none

end Sys2Proof
end

