-- ==== Sys2Proof/Machine/State.lean ====
section
/-! DEFINITION. The state of the core (spec/10_state.md R15: "The state of one core is exactly ..."), the reasons a
step can stop, and the state after reset (R34).  INVENTORY.md lists every field under `## State`. -/

namespace Sys2Proof.Machine

/-- The 65536-byte memory of spec/20_memory.md R35 as the list of its bytes that differ from what an unlisted address
reads as (`Memory.unlisted`), addresses strictly rising (`Memory.wf`). -/
abbrev Memory := List Host.Cell

/-- The core's state.  The paired views `BC`, `DE`, `HL` are computed when read, never stored (R19). -/
structure State where
  /-- The parameters of this instance (R7); no step writes them.  The model's own field, log entry 1. -/
  params : Params
  /-- The accumulator and the six general registers (R17). -/
  a : Byte
  b : Byte
  c : Byte
  d : Byte
  e : Byte
  h : Byte
  l : Byte
  /-- The program counter, "always the address of the next opcode to fetch" between instructions (R22). -/
  pc : Word
  /-- The stack pointer (R24). -/
  sp : Word
  /-- The five flags (R25); `parity` is inert (R27). -/
  zero : Bool
  sign : Bool
  halfCarry : Bool
  carry : Bool
  parity : Bool
  /-- "gates interrupt injection" (R28). -/
  interruptEnabled : Bool
  /-- The "terminal halt flag" (R29). -/
  crashed : Bool
  /-- The scheduler's count of executed instructions since its last check (R30). -/
  instructionCounter : Nat
  /-- Selects the vector of the next injection: false 0x08, true 0x10 (R31). -/
  interruptAlternate : Bool
  /-- Memory (R35). -/
  mem : Memory
  /-- Bytes the environment has already decided to answer to the coming `IN`s, the next one first.  The model's own
  field, log entry 4: when it is empty the free value `Config.portInput` answers. -/
  portInputs : List Byte
  /-- The port calls made so far, oldest first: `Out` is "an event the core emits, recorded as the pair
  `(port, value)` in order" (spec/44_io.md R122).  The model's own field, log entry 5. -/
  portEvents : List PortEvent
  deriving DecidableEq, Repr

/-- The core has no fault: "InvalidOpcode is the only exception of the core" (spec/60_exceptions.md R139), and it leads
to a next state, `crashed`.  No one raises a fault, so the type is empty. -/
inductive Fault where
  deriving DecidableEq, Repr

/-- Why the model answers no next state. -/
inductive Refusal where
  /-- Raised by an arm of `exec` for an instruction that has no meaning yet.  Safe.  No arm raises it. -/
  | notModelled (mnemonic : String)
  /-- Raised by `construct` only: "an image longer than 65536 bytes is refused (no core is built)"
  (spec/70_reset_and_hazards.md R160).  Safe: the spec's own refusal. -/
  | imageTooLong
  /-- Raised by `construct` only: `Q < 2` is refused (spec/93_implementation_defined.md I8, R142).  Safe: the spec's own
  refusal. -/
  | quotaTooSmall
  deriving DecidableEq, Repr

/-- What an instruction answers. -/
abbrev Result := Host.Outcome State Fault Refusal

/-- The machine right after reset with the default parameters: every field as the table of R34 has it, memory as
construction leaves it with no image (R160: every byte 0x00), and no port call made. -/
def State.reset : State where
  params := defaultParams
  a := 0
  b := 0
  c := 0
  d := 0
  e := 0
  h := 0
  l := 0
  pc := 0
  sp := 0
  zero := false
  sign := false
  halfCarry := false
  carry := false
  parity := false
  interruptEnabled := false
  crashed := false
  instructionCounter := 0
  interruptAlternate := false
  mem := []
  portInputs := []
  portEvents := []

end Sys2Proof.Machine
end

