-- ==== Sys2Proof/Machine/Memory.lean ====
section
/-! DEFINITION. The memory primitives of spec/20_memory.md R38 to R41 over the canonical list of cells. -/

namespace Sys2Proof.Machine

/-- What an address that is not listed reads as: 0x00, the construction value of every byte the image does not cover
(spec/70_reset_and_hazards.md R160, log entry 3). -/
def Memory.unlisted : Byte := 0x00

/-- The byte at an address given as a number. -/
def Memory.read : Memory → Nat → Byte
  | [], _ => Memory.unlisted
  | (k, v) :: m, n => if k = n then v else Memory.read m n

/-- The memory without any cell of the address `n`. -/
def Memory.erase (m : Memory) (n : Nat) : Memory := m.filter (fun cell => cell.1 != n)

/-- The memory with the cell `(n, v)` put before the first cell of a greater address. -/
def Memory.insert : Memory → Nat → Byte → Memory
  | [], n, v => [(n, v)]
  | (k, w) :: m, n, v => if k < n then (k, w) :: Memory.insert m n v else (n, v) :: (k, w) :: m

/-- Store `v` at `n`, keeping the canonical form: the value an unlisted address reads as removes the entry. -/
def Memory.write (m : Memory) (n : Nat) (v : Byte) : Memory :=
  if v = Memory.unlisted then m.erase n else (m.erase n).insert n v

/-- The cells rise strictly from `lo`, lie below 65536 (R35), and none holds the value of an unlisted address. -/
def Memory.wfFrom : Nat → Memory → Bool
  | _, [] => true
  | lo, (k, v) :: m => decide (lo ≤ k) && decide (k < 65536) && (v != Memory.unlisted) && Memory.wfFrom (k + 1) m

/-- The canonical form of memory. -/
def Memory.wf (m : Memory) : Bool := Memory.wfFrom 0 m

/-- `MemRead(addr, 1)` (R38). -/
def Memory.readByte (m : Memory) (addr : Word) : Byte := m.read addr.toNat

/-- `MemWrite(addr, 1, v)` (R39). -/
def Memory.writeByte (m : Memory) (addr : Word) (v : Byte) : Memory := m.write addr.toNat v

/-- `MemRead(addr, 2)`: "little-endian: low byte at `addr`, high byte at `addr+1`", the sum `mod 65536` (R40). -/
def Memory.readWord (m : Memory) (addr : Word) : Word := mkWord (m.readByte (addr + 1)) (m.readByte addr)

/-- `MemWrite(addr, 2, v)`: the low byte at `addr`, then the high byte at `(addr + 1) mod 65536` (R41). -/
def Memory.writeWord (m : Memory) (addr : Word) (v : Word) : Memory :=
  (m.writeByte addr (loByte v)).writeByte (addr + 1) (hiByte v)

/-- The bytes of `image` stored from `addr` upward (R160: "bytes to preload starting at address 0"). -/
def Memory.load (m : Memory) : Nat → List Byte → Memory
  | _, [] => m
  | addr, v :: image => (Memory.load m (addr + 1) image).write addr v

end Sys2Proof.Machine
end

