-- ==== Sys2Proof/Machine/Ops.lean ====
section
/-! DEFINITION. The named operations of the core over registers and memory: the paired views, the bus, the stack, the
fetch, the port interface, the one exception and the return from it, and the interrupt scheduler. -/

namespace Sys2Proof.Machine

/-! ### Paired views (spec/10_state.md R19, R20) -/

/-- `BC = (B << 8) | C`. -/
def State.bc (s : State) : Word := mkWord s.b s.c

/-- `DE = (D << 8) | E`. -/
def State.de (s : State) : Word := mkWord s.d s.e

/-- `HL = (H << 8) | L`. -/
def State.hl (s : State) : Word := mkWord s.h s.l

/-- `BC <- v`: both halves at once. -/
def State.setBC (s : State) (v : Word) : State := { s with b := hiByte v, c := loByte v }

/-- `DE <- v`. -/
def State.setDE (s : State) (v : Word) : State := { s with d := hiByte v, e := loByte v }

/-- `HL <- v`. -/
def State.setHL (s : State) (v : Word) : State := { s with h := hiByte v, l := loByte v }

/-! ### The memory bus (spec/20_memory.md) -/

def State.readByte (s : State) (addr : Word) : Byte := s.mem.readByte addr

def State.readWord (s : State) (addr : Word) : Word := s.mem.readWord addr

def State.writeByte (s : State) (addr : Word) (v : Byte) : State := { s with mem := s.mem.writeByte addr v }

def State.writeWord (s : State) (addr : Word) (v : Word) : State := { s with mem := s.mem.writeWord addr v }

/-! ### The stack (spec/42_stack.md) -/

/-- `push16(v)` (R80): `SP <- (SP - 2) mod 65536; MemWrite(SP, 2, v)`. -/
def State.push16 (s : State) (v : Word) : State := { s with sp := s.sp - 2, mem := s.mem.writeWord (s.sp - 2) v }

/-- The value `pop16()` returns (R81): `MemRead(SP, 2)`. -/
def State.popValue (s : State) : Word := s.readWord s.sp

/-- The state `pop16()` leaves (R81): `SP <- (SP + 2) mod 65536`. -/
def State.popped (s : State) : State := { s with sp := s.sp + 2 }

/-! ### Transfers of control (spec/41_control_transfer.md) -/

/-- `PC <- t`. -/
def State.jumpTo (s : State) (t : Word) : State := { s with pc := t }

/-- `push16(PC); PC <- t` (R74): `PC` already holds the address after the instruction. -/
def State.callTo (s : State) (t : Word) : State := (s.push16 s.pc).jumpTo t

/-- `PC <- pop16()` (R76).  It is the return from an injected interrupt: "RET restores only `PC`"
(spec/60_exceptions.md R148). -/
def State.ret (s : State) : State := s.popped.jumpTo s.popValue

/-! ### Fetch (spec/30_encoding.md) -/

/-- The value `fetch_byte()` returns, and the state it leaves (R62). -/
def State.fetchByte (s : State) : Byte × State := (s.readByte s.pc, { s with pc := s.pc + 1 })

/-- The value `fetch_word()` returns, and the state it leaves (R63). -/
def State.fetchWord (s : State) : Word × State := (s.readWord s.pc, { s with pc := s.pc + 2 })

/-- The fetch of R64: read the opcode at `PC`; a byte outside `IMPLEMENTED` becomes `invalid` with `PC` left at its
address; for any other, advance `PC` and fetch the one or two immediate bytes the opcode needs.  The state it gives is
the one in which the instruction's effects begin. -/
def State.fetchInstr (s : State) : Instr × State :=
  let op := s.readByte s.pc
  if s.params.implements op then
    let s1 := s.fetchByte.2
    match opcodeLength op with
    | 1 => (decodeOpcode op 0 0, s1)
    | 2 => (decodeOpcode op s1.fetchByte.1 0, s1.fetchByte.2)
    | _ => (decodeOpcode op (loByte s1.fetchWord.1) (hiByte s1.fetchWord.1), s1.fetchWord.2)
  else (.invalid op, s)

/-- Store bytes from an address upward, the address wrapping (used to place code, never by an instruction). -/
def State.storeBytes (s : State) (addr : Word) : List Byte → State
  | [] => s
  | v :: rest => (s.writeByte addr v).storeBytes (addr + 1) rest

/-! ### Ports (spec/44_io.md R122) -/

/-- `Out(port, value)`: one call of `output`, recorded in order. -/
def State.portOut (s : State) (port value : Byte) : State :=
  { s with portEvents := s.portEvents ++ [.output port value] }

/-- The byte `In(port)` draws: the environment's next ready answer, else the free value, which depends on the port and on
all earlier calls only. -/
def State.portAnswer (s : State) (port : Byte) : Byte :=
  match s.portInputs with
  | v :: _ => v
  | [] => Config.portInput s.portEvents port

/-- `A <- In(port)`: one call of `input`, recorded in order with the byte it returned. -/
def State.portIn (s : State) (port : Byte) : State :=
  { s with
    a := s.portAnswer port
    portInputs := s.portInputs.tail
    portEvents := s.portEvents ++ [.input port (s.portAnswer port)] }

/-! ### The exception (spec/60_exceptions.md section 2) and the return from it -/

/-- Taking InvalidOpcode (R139), "as one atomic step: `crashed <- true`; `PC` is left at the address of the invalid byte";
nothing else changes.  "There is no handler, no vector and nothing is pushed." -/
def State.crash (s : State) : State := { s with crashed := true }

/-- `reset()` (spec/70_reset_and_hazards.md R161), the only way out of `Crashed`: every field of R15 except memory takes
its value of R34.  The parameters stay, and "`reset` ... calls no port": the environment's fields stay. -/
def State.doReset (s : State) : State :=
  { State.reset with params := s.params, mem := s.mem, portInputs := s.portInputs, portEvents := s.portEvents }

/-! ### The interrupt scheduler (spec/60_exceptions.md section 3) -/

/-- The vector of the next injection (R145): `interrupt_alternate ? 0x10 : 0x08`. -/
def State.interruptVector (s : State) : Word := if s.interruptAlternate then 0x0010 else 0x0008

/-- `inject()` (R145). -/
def State.inject (s : State) : State :=
  { s.push16 s.pc with
    pc := s.interruptVector
    interruptAlternate := !s.interruptAlternate
    interruptEnabled := false }

/-- The check period `Q div 2` (R142). -/
def State.checkPeriod (s : State) : Nat := s.params.quota / 2

/-- The count and the check after an executed instruction (R143, R144): at `instruction_counter = Q div 2` inject if
`interrupt_enabled`, and set the counter to 0 whether or not an interrupt fired. -/
def State.schedule (s : State) : State :=
  if s.instructionCounter + 1 = s.checkPeriod then
    { (if s.interruptEnabled then s.inject else s) with instructionCounter := 0 }
  else { s with instructionCounter := s.instructionCounter + 1 }

/-- What an iteration does after `exec` (R138): the crashing iteration "is not counted by the scheduler" (R139); every
other one is. -/
def State.finishIteration (s : State) : State := if s.crashed then s else s.schedule

/-- `finishIteration` on what an instruction answers. -/
def finish (r : Result) : Result :=
  match r with
  | .next t => .next t.finishIteration
  | .fault f => .fault f
  | .refused why => .refused why

end Sys2Proof.Machine
end

