-- ==== Sys2Proof/Machine/Operands.lean ====
section
/-! DEFINITION. Every operand form of the instructions (spec/30_encoding.md R56, R61; spec/10_state.md R21;
spec/42_stack.md R82). -/

namespace Sys2Proof.Machine

/-- `x[i]`, or `MemRead(HL, 1)` for `M` (R56). -/
def State.readOperand (s : State) : Operand8 → Byte
  | .b => s.b
  | .c => s.c
  | .d => s.d
  | .e => s.e
  | .h => s.h
  | .l => s.l
  | .m => s.readByte s.hl
  | .a => s.a

/-- `x[i] <- v`, or `MemWrite(HL, 1, v)` for `M` (R56). -/
def State.writeOperand (s : State) (r : Operand8) (v : Byte) : State :=
  match r with
  | .b => { s with b := v }
  | .c => { s with c := v }
  | .d => { s with d := v }
  | .e => { s with e := v }
  | .h => { s with h := v }
  | .l => { s with l := v }
  | .m => s.writeByte s.hl v
  | .a => { s with a := v }

/-- `rp[p]` for LXI, INX, DCX, DAD (R21). -/
def State.readPair (s : State) : RegPair → Word
  | .bc => s.bc
  | .de => s.de
  | .hl => s.hl
  | .sp => s.sp

/-- `rp[p] <- v` (R20, R21). -/
def State.writePair (s : State) (rp : RegPair) (v : Word) : State :=
  match rp with
  | .bc => s.setBC v
  | .de => s.setDE v
  | .hl => s.setHL v
  | .sp => { s with sp := v }

/-- The address of LDAX and STAX (R61). -/
def State.indirectAddr (s : State) : IndirectPair → Word
  | .bc => s.bc
  | .de => s.de

/-- The flag byte `F` (R82): `sign<<7 | zero<<6 | interrupt_enabled<<5 | half_carry<<4 | carry`, bits 3..1 zero. -/
def State.flagByte (s : State) : Byte :=
  BitVec.ofNat 8 (flagNat s.sign <<< 7 ||| flagNat s.zero <<< 6 ||| flagNat s.interruptEnabled <<< 5
    ||| flagNat s.halfCarry <<< 4 ||| flagNat s.carry)

/-- `PSW = (A << 8) | F` (R82). -/
def State.psw (s : State) : Word := mkWord s.a s.flagByte

/-- The writes of POP PSW (R86); bits 3..1 of the byte are ignored and `parity` keeps its value. -/
def State.setPSW (s : State) (v : Word) : State :=
  let f := loByte v
  { s with
    a := hiByte v
    sign := f.getLsbD 7
    zero := f.getLsbD 6
    interruptEnabled := f.getLsbD 5
    halfCarry := f.getLsbD 4
    carry := f.getLsbD 0 }

/-- The pair PUSH pushes (R83, R84). -/
def State.readStackPair (s : State) : StackPair → Word
  | .bc => s.bc
  | .de => s.de
  | .hl => s.hl
  | .psw => s.psw

/-- The pair POP loads (R85, R86). -/
def State.writeStackPair (s : State) (rp : StackPair) (v : Word) : State :=
  match rp with
  | .bc => s.setBC v
  | .de => s.setDE v
  | .hl => s.setHL v
  | .psw => s.setPSW v

end Sys2Proof.Machine
end

