-- ==== Sys2Proof/Machine/Flags.lean ====
section
/-! DEFINITION. Every flag computation of the core: `ZS`, the half-carry bit, the three ALU cores, INR and DCR, DAA, the
rotates, the 16-bit add and the conditions (spec/43_arith_logic.md, spec/41_control_transfer.md R70).
Arithmetic is "done on unbounded integers" and narrowed where a rule says so (spec/00_scope.md R9). -/

namespace Sys2Proof.Machine

/-- `ZS(r)` (spec/00_scope.md R13): `zero <- (r = 0); sign <- (r[7] = 1)`. -/
def State.setZS (s : State) (r : Byte) : State := { s with zero := r == 0, sign := r.getLsbD 7 }

/-- `((x ^ y ^ r) & 0x10) != 0`: the carry or borrow into bit 4 (R91, R92, R110, R111). -/
def halfCarryBit (x y r : Nat) : Bool := ((x ^^^ y ^^^ r) &&& 0x10) != 0

/-- `add8(v, cin)` (R91). -/
def State.add8 (s : State) (v : Byte) (cin : Bool) : State :=
  let res := s.a.toNat + v.toNat + flagNat cin
  let r8 := BitVec.ofNat 8 res
  { s with
    a := r8
    carry := decide (res > 255)
    halfCarry := halfCarryBit s.a.toNat v.toNat res
    zero := r8 == 0
    sign := r8.getLsbD 7 }

/-- The borrow of `sub8` under the parameter `P_SBB_ZERO_OPERAND_BORROW` (R92). -/
def borrow8 (zeroOperandBorrow : Bool) (a v : Byte) (cin : Bool) : Bool :=
  if zeroOperandBorrow then decide (a.toNat < v.toNat + flagNat cin)
  else (v != 0) && decide (a.toNat < v.toNat + flagNat cin)

/-- `(A - v - cin) mod 256` (R92), the difference taken over the integers. -/
def diff8 (a v : Byte) (cin : Bool) : Byte := BitVec.ofInt 8 ((a.toNat : Int) - v.toNat - flagNat cin)

/-- `sub8(v, cin, store)` (R92). -/
def State.sub8 (s : State) (v : Byte) (cin store : Bool) : State :=
  let r8 := diff8 s.a v cin
  { s with
    a := if store then r8 else s.a
    carry := borrow8 s.params.sbbZeroOperandBorrow s.a v cin
    halfCarry := halfCarryBit s.a.toNat v.toNat r8.toNat
    zero := r8 == 0
    sign := r8.getLsbD 7 }

/-- The writes of `logic8` (R93) for the result `r`: "always clear `carry` and `half_carry`; set `zero`/`sign` from
result". -/
def State.logic8 (s : State) (r : Byte) : State :=
  { s with a := r, carry := false, halfCarry := false, zero := r == 0, sign := r.getLsbD 7 }

/-- The flags INR and DCR write for the operand `v` and the result `r` (R110, R111); `carry` is not touched. -/
def State.setIncDecFlags (s : State) (v r : Byte) : State :=
  { s with halfCarry := halfCarryBit v.toNat 1 r.toNat, zero := r == 0, sign := r.getLsbD 7 }

/-- DAA's first step (R112): the value after it, and whether it adjusted. -/
def daaLow (a : Byte) (halfCarry : Bool) : Nat × Bool :=
  if a.toNat % 16 > 9 || halfCarry then (a.toNat + 0x06, true) else (a.toNat, false)

/-- DAA's second step (R112) on the possibly updated value. -/
def daaHigh (t : Nat) (carry : Bool) : Nat × Bool :=
  if t > 0x9F || carry then (t + 0x60, true) else (t, false)

/-- DAA (R112); `P_DAA_MASK_INTERMEDIATE` masks the value to 8 bits between the two steps. -/
def State.decimalAdjust (s : State) : State :=
  let low := daaLow s.a s.halfCarry
  let t := if s.params.daaMaskIntermediate then low.1 % 256 else low.1
  let high := daaHigh t s.carry
  let r := BitVec.ofNat 8 high.1
  { s with a := r, halfCarry := low.2, carry := high.2, zero := r == 0, sign := r.getLsbD 7 }

/-- `((A << 1) | b) mod 256` with `carry <- A[7]` (R114, R116): the left rotates, `b` the bit that comes in. -/
def State.rotateLeft (s : State) (b : Bool) : State :=
  { s with a := BitVec.ofNat 8 (s.a.toNat <<< 1 ||| flagNat b), carry := s.a.getLsbD 7 }

/-- `(A >> 1) | (b << 7)` with `carry <- A[0]` (R115, R117): the right rotates. -/
def State.rotateRight (s : State) (b : Bool) : State :=
  { s with a := BitVec.ofNat 8 (s.a.toNat >>> 1 ||| flagNat b <<< 7), carry := s.a.getLsbD 0 }

/-- DAD's sum (spec/45_data_movement.md R137): `carry <- (s > 0xFFFF); HL <- s mod 65536`. -/
def State.addToHL (s : State) (v : Word) : State :=
  let sum := s.hl.toNat + v.toNat
  { s.setHL (BitVec.ofNat 16 sum) with carry := decide (sum > 0xFFFF) }

/-- `cond(ccc)` (R70). -/
def State.holds (s : State) : Cond → Bool
  | .nz => !s.zero
  | .z => s.zero
  | .nc => !s.carry
  | .c => s.carry
  | .p => !s.sign
  | .m => s.sign

end Sys2Proof.Machine
end

