-- ==== Sys2Proof/Machine/ArithLogic.lean ====
section
/-! DEFINITION. The meanings of spec/43_arith_logic.md: the ALU, INR and DCR, DAA, the rotates and the flag control. -/

namespace Sys2Proof.Machine

/-- ADD r (R94). -/
def execAdd (r : Operand8) (s : State) : Result :=
  .next (s.add8 (s.readOperand r) false)

/-- ADC r (R95). -/
def execAdc (r : Operand8) (s : State) : Result :=
  .next (s.add8 (s.readOperand r) s.carry)

/-- SUB r (R96). -/
def execSub (r : Operand8) (s : State) : Result :=
  .next (s.sub8 (s.readOperand r) false true)

/-- SBB r (R97). -/
def execSbb (r : Operand8) (s : State) : Result :=
  .next (s.sub8 (s.readOperand r) s.carry true)

/-- ANA r (R98). -/
def execAna (r : Operand8) (s : State) : Result :=
  .next (s.logic8 (s.a &&& s.readOperand r))

/-- XRA r (R99). -/
def execXra (r : Operand8) (s : State) : Result :=
  .next (s.logic8 (s.a ^^^ s.readOperand r))

/-- ORA r (R100). -/
def execOra (r : Operand8) (s : State) : Result :=
  .next (s.logic8 (s.a ||| s.readOperand r))

/-- CMP r (R101). -/
def execCmp (r : Operand8) (s : State) : Result :=
  .next (s.sub8 (s.readOperand r) false false)

/-- ADI d8 (R102). -/
def execAdi (d8 : Byte) (s : State) : Result :=
  .next (s.add8 d8 false)

/-- ACI d8 (R103). -/
def execAci (d8 : Byte) (s : State) : Result :=
  .next (s.add8 d8 s.carry)

/-- SUI d8 (R104). -/
def execSui (d8 : Byte) (s : State) : Result :=
  .next (s.sub8 d8 false true)

/-- SBI d8 (R105). -/
def execSbi (d8 : Byte) (s : State) : Result :=
  .next (s.sub8 d8 s.carry true)

/-- ANI d8 (R106). -/
def execAni (d8 : Byte) (s : State) : Result :=
  .next (s.logic8 (s.a &&& d8))

/-- XRI d8 (R107). -/
def execXri (d8 : Byte) (s : State) : Result :=
  .next (s.logic8 (s.a ^^^ d8))

/-- ORI d8 (R108). -/
def execOri (d8 : Byte) (s : State) : Result :=
  .next (s.logic8 (s.a ||| d8))

/-- CPI d8 (R109). -/
def execCpi (d8 : Byte) (s : State) : Result :=
  .next (s.sub8 d8 false false)

/-- INR r (R110): the operand is read and written at the same `HL` for M; `carry` is never touched. -/
def execInr (r : Operand8) (s : State) : Result :=
  .next ((s.writeOperand r (s.readOperand r + 1)).setIncDecFlags (s.readOperand r) (s.readOperand r + 1))

/-- DCR r (R111); `carry` is never touched. -/
def execDcr (r : Operand8) (s : State) : Result :=
  .next ((s.writeOperand r (s.readOperand r - 1)).setIncDecFlags (s.readOperand r) (s.readOperand r - 1))

/-- DAA (R112). -/
def execDaa (s : State) : Result :=
  .next s.decimalAdjust

/-- CMA (R113): `A <- A ^ 0xFF`, "flags unaffected". -/
def execCma (s : State) : Result :=
  .next { s with a := s.a ^^^ 0xFF }

/-- RLC (R114): the rotated-out bit comes back in. -/
def execRlc (s : State) : Result :=
  .next (s.rotateLeft (s.a.getLsbD 7))

/-- RRC (R115): the rotated-out bit comes back in. -/
def execRrc (s : State) : Result :=
  .next (s.rotateRight (s.a.getLsbD 0))

/-- RAL (R116): the previous carry comes in. -/
def execRal (s : State) : Result :=
  .next (s.rotateLeft s.carry)

/-- RAR (R117): the previous carry comes in. -/
def execRar (s : State) : Result :=
  .next (s.rotateRight s.carry)

/-- STC (R118). -/
def execStc (s : State) : Result :=
  .next { s with carry := true }

/-- CMC (R119): clears `carry`, or complements it under `P_CMC_COMPLEMENTS`. -/
def execCmc (s : State) : Result :=
  .next { s with carry := if s.params.cmcComplements then !s.carry else false }

/-- DI (R120). -/
def execDi (s : State) : Result :=
  .next { s with interruptEnabled := false }

/-- EI (R121): "the enable takes effect at once". -/
def execEi (s : State) : Result :=
  .next { s with interruptEnabled := true }

end Sys2Proof.Machine
end

