-- ==== Sys2Proof/Machine/ControlTransfer.lean ====
section
/-! DEFINITION. The meanings of spec/41_control_transfer.md: jumps, calls, returns, RST and PCHL.
When they run, `PC` holds the address after the instruction (spec/10_state.md R22); none writes a flag (R71). -/

namespace Sys2Proof.Machine

/-- `if cond(ccc): PC <- t` (R73): not taken, `PC` stays just after the instruction. -/
def State.jumpIf (s : State) (cond : Cond) (t : Word) : State := if s.holds cond then s.jumpTo t else s

/-- `if cond(ccc): push16(PC); PC <- t` (R75). -/
def State.callIf (s : State) (cond : Cond) (t : Word) : State := if s.holds cond then s.callTo t else s

/-- `if cond(ccc): PC <- pop16()` (R77). -/
def State.retIf (s : State) (cond : Cond) : State := if s.holds cond then s.ret else s

/-- JMP a16 (R72). -/
def execJmp (a16 : Word) (s : State) : Result :=
  .next (s.jumpTo a16)

/-- JNZ a16 (R73). -/
def execJnz (a16 : Word) (s : State) : Result :=
  .next (s.jumpIf .nz a16)

/-- JZ a16 (R73). -/
def execJz (a16 : Word) (s : State) : Result :=
  .next (s.jumpIf .z a16)

/-- JNC a16 (R73). -/
def execJnc (a16 : Word) (s : State) : Result :=
  .next (s.jumpIf .nc a16)

/-- JC a16 (R73). -/
def execJc (a16 : Word) (s : State) : Result :=
  .next (s.jumpIf .c a16)

/-- JP a16 (R73). -/
def execJp (a16 : Word) (s : State) : Result :=
  .next (s.jumpIf .p a16)

/-- JM a16 (R73). -/
def execJm (a16 : Word) (s : State) : Result :=
  .next (s.jumpIf .m a16)

/-- CALL a16 (R74): pushes the address after the instruction. -/
def execCall (a16 : Word) (s : State) : Result :=
  .next (s.callTo a16)

/-- CNZ a16 (R75). -/
def execCnz (a16 : Word) (s : State) : Result :=
  .next (s.callIf .nz a16)

/-- CZ a16 (R75). -/
def execCz (a16 : Word) (s : State) : Result :=
  .next (s.callIf .z a16)

/-- CNC a16 (R75). -/
def execCnc (a16 : Word) (s : State) : Result :=
  .next (s.callIf .nc a16)

/-- CC a16 (R75). -/
def execCc (a16 : Word) (s : State) : Result :=
  .next (s.callIf .c a16)

/-- RET (R76). -/
def execRet (s : State) : Result :=
  .next s.ret

/-- RNZ (R77). -/
def execRnz (s : State) : Result :=
  .next (s.retIf .nz)

/-- RZ (R77). -/
def execRz (s : State) : Result :=
  .next (s.retIf .z)

/-- RNC (R77). -/
def execRnc (s : State) : Result :=
  .next (s.retIf .nc)

/-- RC (R77). -/
def execRc (s : State) : Result :=
  .next (s.retIf .c)

/-- RST n (R78): `push16(PC); PC <- nnn * 8`. -/
def execRst (n : BitVec 3) (s : State) : Result :=
  .next (s.callTo (BitVec.ofNat 16 (n.toNat * 8)))

/-- PCHL (R79). -/
def execPchl (s : State) : Result :=
  .next (s.jumpTo s.hl)

end Sys2Proof.Machine
end

