-- ==== Sys2Proof/Machine/DataMovement.lean ====
section
/-! DEFINITION. The meanings of spec/45_data_movement.md: data movement and 16-bit register arithmetic. -/

namespace Sys2Proof.Machine

/-- NOP (R125): nothing beyond the opcode fetch. -/
def execNop (s : State) : Result :=
  .next s

/-- MOV d,s (R126): the source is read, at the old `HL` for M, before the destination is written. -/
def execMov (dst src : Operand8) (s : State) : Result :=
  .next (s.writeOperand dst (s.readOperand src))

/-- MVI d,d8 (R127). -/
def execMvi (r : Operand8) (d8 : Byte) (s : State) : Result :=
  .next (s.writeOperand r d8)

/-- LXI rp,d16 (R128). -/
def execLxi (rp : RegPair) (d16 : Word) (s : State) : Result :=
  .next (s.writePair rp d16)

/-- LDA a16 (R129): `A <- MemRead(a, 1)`. -/
def execLda (a16 : Word) (s : State) : Result :=
  .next { s with a := s.readByte a16 }

/-- STA a16 (R130): `MemWrite(a, 1, A)`. -/
def execSta (a16 : Word) (s : State) : Result :=
  .next (s.writeByte a16 s.a)

/-- LHLD a16 (R131): `HL <- MemRead(a, 2)`. -/
def execLhld (a16 : Word) (s : State) : Result :=
  .next (s.setHL (s.readWord a16))

/-- SHLD a16 (R132): `MemWrite(a, 2, HL)`. -/
def execShld (a16 : Word) (s : State) : Result :=
  .next (s.writeWord a16 s.hl)

/-- LDAX rp (R133): `A <- MemRead(rp[p], 1)`. -/
def execLdax (rp : IndirectPair) (s : State) : Result :=
  .next { s with a := s.readByte (s.indirectAddr rp) }

/-- STAX rp (R134): `MemWrite(rp[p], 1, A)`. -/
def execStax (rp : IndirectPair) (s : State) : Result :=
  .next (s.writeByte (s.indirectAddr rp) s.a)

/-- INX rp (R135): `rp[p] <- (rp[p] + 1) mod 65536`, no flag written. -/
def execInx (rp : RegPair) (s : State) : Result :=
  .next (s.writePair rp (s.readPair rp + 1))

/-- DCX rp (R136): `rp[p] <- (rp[p] - 1) mod 65536`, no flag written. -/
def execDcx (rp : RegPair) (s : State) : Result :=
  .next (s.writePair rp (s.readPair rp - 1))

/-- DAD rp (R137): the sum to `HL`, its carry to `carry` only. -/
def execDad (rp : RegPair) (s : State) : Result :=
  .next (s.addToHL (s.readPair rp))

end Sys2Proof.Machine
end

