-- ==== Sys2Proof/Machine/Exceptions.lean ====
section
/-! DEFINITION. The meaning of the opcode bytes that raise InvalidOpcode (spec/60_exceptions.md R139). -/

namespace Sys2Proof.Machine

/-- An opcode outside `IMPLEMENTED` (R139): it takes InvalidOpcode, whatever the byte.  The byte itself shows only in the
diagnostic the host gets (`State.crashDiagnostic`). -/
def execInvalid (_op : Byte) (s : State) : Result :=
  .next s.crash

end Sys2Proof.Machine
end

