-- ==== Sys2Proof/Machine/PortIo.lean ====
section
/-! DEFINITION. The meanings of spec/44_io.md: OUT and IN. -/

namespace Sys2Proof.Machine

/-- OUT d8 (R123): `Out(port, A)`. -/
def execOut (port : Byte) (s : State) : Result :=
  .next (s.portOut port s.a)

/-- IN d8 (R124): `A <- In(port)`, no flag written. -/
def execInp (port : Byte) (s : State) : Result :=
  .next (s.portIn port)

end Sys2Proof.Machine
end

