-- ==== Sys2Proof/Machine/Stack.lean ====
section
/-! DEFINITION. The meanings of spec/42_stack.md: PUSH, POP, XCHG, XTHL, SPHL. -/

namespace Sys2Proof.Machine

/-- PUSH rp and PUSH PSW (R83, R84). -/
def execPush (rp : StackPair) (s : State) : Result :=
  .next (s.push16 (s.readStackPair rp))

/-- POP rp and POP PSW (R85, R86). -/
def execPop (rp : StackPair) (s : State) : Result :=
  .next (s.popped.writeStackPair rp s.popValue)

/-- XCHG (R87). -/
def execXchg (s : State) : Result :=
  .next ((s.setDE s.hl).setHL s.de)

/-- XTHL (R88): `SP` is unchanged. -/
def execXthl (s : State) : Result :=
  .next ((s.writeWord s.sp s.hl).setHL (s.readWord s.sp))

/-- SPHL (R89). -/
def execSphl (s : State) : Result :=
  .next { s with sp := s.hl }

end Sys2Proof.Machine
end

