-- ==== Sys2Proof/Machine/Dispatch.lean ====
section
/-! DEFINITION. One arm per constructor of `Instr`: the behaviour each opcode dispatches to (spec/30_encoding.md R65).
The state is the one in which the instruction's effects begin, its bytes fetched (R64). -/

namespace Sys2Proof.Machine

/-- The effect of an instruction. -/
def exec (i : Instr) (s : State) : Host.Outcome State Fault Refusal :=
  match i with
  | .nop => Sys2Proof.Machine.execNop s
  | .lxi rp d16 => Sys2Proof.Machine.execLxi rp d16 s
  | .stax rp => Sys2Proof.Machine.execStax rp s
  | .inx rp => Sys2Proof.Machine.execInx rp s
  | .inr r => Sys2Proof.Machine.execInr r s
  | .dcr r => Sys2Proof.Machine.execDcr r s
  | .mvi r d8 => Sys2Proof.Machine.execMvi r d8 s
  | .rlc => Sys2Proof.Machine.execRlc s
  | .invalid op => Sys2Proof.Machine.execInvalid op s
  | .dad rp => Sys2Proof.Machine.execDad rp s
  | .ldax rp => Sys2Proof.Machine.execLdax rp s
  | .dcx rp => Sys2Proof.Machine.execDcx rp s
  | .rrc => Sys2Proof.Machine.execRrc s
  | .ral => Sys2Proof.Machine.execRal s
  | .rar => Sys2Proof.Machine.execRar s
  | .shld a16 => Sys2Proof.Machine.execShld a16 s
  | .daa => Sys2Proof.Machine.execDaa s
  | .lhld a16 => Sys2Proof.Machine.execLhld a16 s
  | .cma => Sys2Proof.Machine.execCma s
  | .sta a16 => Sys2Proof.Machine.execSta a16 s
  | .stc => Sys2Proof.Machine.execStc s
  | .lda a16 => Sys2Proof.Machine.execLda a16 s
  | .cmc => Sys2Proof.Machine.execCmc s
  | .mov dst src => Sys2Proof.Machine.execMov dst src s
  | .add r => Sys2Proof.Machine.execAdd r s
  | .adc r => Sys2Proof.Machine.execAdc r s
  | .sub r => Sys2Proof.Machine.execSub r s
  | .sbb r => Sys2Proof.Machine.execSbb r s
  | .ana r => Sys2Proof.Machine.execAna r s
  | .xra r => Sys2Proof.Machine.execXra r s
  | .ora r => Sys2Proof.Machine.execOra r s
  | .cmp r => Sys2Proof.Machine.execCmp r s
  | .rnz => Sys2Proof.Machine.execRnz s
  | .pop rp => Sys2Proof.Machine.execPop rp s
  | .jnz a16 => Sys2Proof.Machine.execJnz a16 s
  | .jmp a16 => Sys2Proof.Machine.execJmp a16 s
  | .cnz a16 => Sys2Proof.Machine.execCnz a16 s
  | .push rp => Sys2Proof.Machine.execPush rp s
  | .adi d8 => Sys2Proof.Machine.execAdi d8 s
  | .rst n => Sys2Proof.Machine.execRst n s
  | .rz => Sys2Proof.Machine.execRz s
  | .ret => Sys2Proof.Machine.execRet s
  | .jz a16 => Sys2Proof.Machine.execJz a16 s
  | .cz a16 => Sys2Proof.Machine.execCz a16 s
  | .call a16 => Sys2Proof.Machine.execCall a16 s
  | .aci d8 => Sys2Proof.Machine.execAci d8 s
  | .rnc => Sys2Proof.Machine.execRnc s
  | .jnc a16 => Sys2Proof.Machine.execJnc a16 s
  | .out port => Sys2Proof.Machine.execOut port s
  | .cnc a16 => Sys2Proof.Machine.execCnc a16 s
  | .sui d8 => Sys2Proof.Machine.execSui d8 s
  | .rc => Sys2Proof.Machine.execRc s
  | .jc a16 => Sys2Proof.Machine.execJc a16 s
  | .inp port => Sys2Proof.Machine.execInp port s
  | .cc a16 => Sys2Proof.Machine.execCc a16 s
  | .sbi d8 => Sys2Proof.Machine.execSbi d8 s
  | .xthl => Sys2Proof.Machine.execXthl s
  | .ani d8 => Sys2Proof.Machine.execAni d8 s
  | .pchl => Sys2Proof.Machine.execPchl s
  | .xchg => Sys2Proof.Machine.execXchg s
  | .xri d8 => Sys2Proof.Machine.execXri d8 s
  | .jp a16 => Sys2Proof.Machine.execJp a16 s
  | .di => Sys2Proof.Machine.execDi s
  | .ori d8 => Sys2Proof.Machine.execOri d8 s
  | .sphl => Sys2Proof.Machine.execSphl s
  | .jm a16 => Sys2Proof.Machine.execJm a16 s
  | .ei => Sys2Proof.Machine.execEi s
  | .cpi d8 => Sys2Proof.Machine.execCpi d8 s

end Sys2Proof.Machine
end

