-- ==== Sys2Proof/Machine/Step.lean ====
section
/-! DEFINITION. One step: one iteration of the core (spec/60_exceptions.md R138, R152).  Everything it does is an
operation of Machine/Ops.lean or a meaning. -/

namespace Sys2Proof.Machine

/-- One iteration (R138): a no-op while `crashed` (R141); else fetch, execute, then the scheduler's count and check. -/
def step (s : State) : Host.Outcome State Fault Refusal :=
  if s.crashed then .next s else finish (exec s.fetchInstr.1 s.fetchInstr.2)

/-- `s` with the instruction of an opcode-table word placed where the next step fetches it, at `PC`, and the core
running (a crashed core fetches nothing, R141). -/
def State.withFetchWord (s : State) (nbits w : Nat) : State :=
  { s with crashed := false }.storeBytes s.pc (tableWordBytes nbits w)

end Sys2Proof.Machine
end

