-- ==== Sys2Proof/Machine/HostOps.lean ====
section
/-! DEFINITION. What the host does to a core: construction, `step`, `run_frame`, `reset` and the read-only accessors
(spec/60_exceptions.md section 4, spec/70_reset_and_hazards.md R160, R161, spec/10_state.md R33).  The results are what the
host is told; they are no state (R32, R153). -/

namespace Sys2Proof.Machine

/-- The crash diagnostic `{instruction_index, opcode, pc}` (R140). -/
structure Diagnostic where
  instructionIndex : Nat
  opcode : Byte
  pc : Word
  deriving DecidableEq, Repr

/-- The results of `step` (R153). -/
inductive StepResult where
  | executed
  | crashed (diag : Diagnostic)
  | noop
  deriving DecidableEq, Repr

/-- The results of `run_frame` (R153). -/
inductive FrameResult where
  | completed
  | crashed (diag : Diagnostic)
  | alreadyCrashed
  deriving DecidableEq, Repr

/-- The diagnostic of a crash of the iteration `index` (R140): the byte at `PC` and `PC` itself. -/
def State.crashDiagnostic (s : State) (index : Nat) : Diagnostic where
  instructionIndex := index
  opcode := s.readByte s.pc
  pc := s.pc

/-- The result of the iteration `index` from `s` (R138). -/
def State.iterationResult (s : State) (index : Nat) : StepResult :=
  if s.crashed then .noop
  else if s.params.implements (s.readByte s.pc) then .executed
  else .crashed (s.crashDiagnostic index)

/-- `iteration(index)` (R138): the result it returns and the state it leaves. -/
def iteration (index : Nat) (s : State) : Host.Outcome (StepResult × State) Fault Refusal :=
  match step s with
  | .next t => .next (s.iterationResult index, t)
  | .fault f => .fault f
  | .refused r => .refused r

/-- `step()`: "exactly one iteration with index 0" (R152). -/
def hostStep (s : State) : Host.Outcome (StepResult × State) Fault Refusal := iteration 0 s

/-- `n` iterations from the index `index` on; `found` is the diagnostic of the crash met so far. -/
def frameLoop : Nat → Nat → Option Diagnostic → State → Host.Outcome (Option Diagnostic × State) Fault Refusal
  | 0, _, found, s => .next (found, s)
  | n + 1, index, found, s =>
    match iteration index s with
    | .next (.crashed diag, t) => frameLoop n (index + 1) (some diag) t
    | .next (.executed, t) => frameLoop n (index + 1) found t
    | .next (.noop, t) => frameLoop n (index + 1) found t
    | .fault f => .fault f
    | .refused r => .refused r

/-- `run_frame()` (R151): "exactly `Q` iterations with indices `0, 1, ..., Q - 1`", with the result of R153. -/
def runFrame (s : State) : Host.Outcome (FrameResult × State) Fault Refusal :=
  match frameLoop s.params.quota 0 none s with
  | .next (some diag, t) => .next (.crashed diag, t)
  | .next (none, t) => .next (if s.crashed then .alreadyCrashed else .completed, t)
  | .fault f => .fault f
  | .refused r => .refused r

/-- `reset()` (R161); it "returns nothing". -/
def hostReset (s : State) : State := s.doReset

/-- Construction (R160): memory from the image, every other field at its reset value (D19).  A quota below 2 and an image
longer than 65536 bytes are refused.  `inputs` is what the environment has ready for the first `IN`s (log entry 4). -/
def construct (params : Params) (image inputs : List Byte) : Host.Outcome State Fault Refusal :=
  if params.quota < 2 then .refused .quotaTooSmall
  else if image.length > 65536 then .refused .imageTooLong
  else .next { State.reset with params := params, mem := Memory.load [] 0 image, portInputs := inputs }

/-- The host's read-only accessors (R33): "every register, flag, `pc`, `sp`, and crashed/interrupt-enabled state".  The
scheduler fields have none. -/
structure HostView where
  a : Byte
  b : Byte
  c : Byte
  d : Byte
  e : Byte
  h : Byte
  l : Byte
  bc : Word
  de : Word
  hl : Word
  pc : Word
  sp : Word
  zero : Bool
  sign : Bool
  halfCarry : Bool
  carry : Bool
  parity : Bool
  interruptEnabled : Bool
  crashed : Bool
  deriving DecidableEq, Repr

/-- What the accessors show. -/
def State.hostView (s : State) : HostView where
  a := s.a
  b := s.b
  c := s.c
  d := s.d
  e := s.e
  h := s.h
  l := s.l
  bc := s.bc
  de := s.de
  hl := s.hl
  pc := s.pc
  sp := s.sp
  zero := s.zero
  sign := s.sign
  halfCarry := s.halfCarry
  carry := s.carry
  parity := s.parity
  interruptEnabled := s.interruptEnabled
  crashed := s.crashed

end Sys2Proof.Machine
end

