-- ==== Sys2Proof/Safety.lean ====
section
/-! DEFINITION. The terms claims about the core are stated in: the invariant of every step, what an instruction may
write, where it stores, and the arithmetic of the ALU said in plain numbers. -/

namespace Sys2Proof.Machine

/-- The invariant every step keeps: a legal quota (spec/60_exceptions.md R142), memory in its canonical form, the
scheduler's counter in "`0 .. Q/2 - 1`" (spec/10_state.md R30), and `parity` at "its reset value 0" (R27). -/
abbrev State.Inv (s : State) : Prop :=
  s.params.wf ∧ s.mem.wf = true ∧ s.instructionCounter < s.checkPeriod ∧ s.parity = false

/-- `bytes` is the encoding of `i`: the decoder reads `i` from them and nothing is left over. -/
abbrev DecodesTo (bytes : List Byte) (i : Instr) : Prop := decode bytes = .ok (i, [])

/-- The fields of the state, to say which an instruction leaves alone. -/
inductive Field where
  | params | a | b | c | d | e | h | l | pc | sp | zero | sign | halfCarry | carry | parity | interruptEnabled
  | crashed | instructionCounter | interruptAlternate | mem | portInputs | portEvents
  deriving DecidableEq, Repr

/-- The field has the same value in both states. -/
def Field.Same (f : Field) (s t : State) : Prop :=
  match f with
  | .params => t.params = s.params
  | .a => t.a = s.a
  | .b => t.b = s.b
  | .c => t.c = s.c
  | .d => t.d = s.d
  | .e => t.e = s.e
  | .h => t.h = s.h
  | .l => t.l = s.l
  | .pc => t.pc = s.pc
  | .sp => t.sp = s.sp
  | .zero => t.zero = s.zero
  | .sign => t.sign = s.sign
  | .halfCarry => t.halfCarry = s.halfCarry
  | .carry => t.carry = s.carry
  | .parity => t.parity = s.parity
  | .interruptEnabled => t.interruptEnabled = s.interruptEnabled
  | .crashed => t.crashed = s.crashed
  | .instructionCounter => t.instructionCounter = s.instructionCounter
  | .interruptAlternate => t.interruptAlternate = s.interruptAlternate
  | .mem => t.mem = s.mem
  | .portInputs => t.portInputs = s.portInputs
  | .portEvents => t.portEvents = s.portEvents

/-- What writing an 8-bit operand writes. -/
def Operand8.fields : Operand8 → List Field
  | .b => [.b]
  | .c => [.c]
  | .d => [.d]
  | .e => [.e]
  | .h => [.h]
  | .l => [.l]
  | .m => [.mem]
  | .a => [.a]

/-- What writing a pair writes. -/
def RegPair.fields : RegPair → List Field
  | .bc => [.b, .c]
  | .de => [.d, .e]
  | .hl => [.h, .l]
  | .sp => [.sp]

/-- What popping into a pair writes beside `SP` (spec/42_stack.md R85, R86). -/
def StackPair.fields : StackPair → List Field
  | .bc => [.b, .c]
  | .de => [.d, .e]
  | .hl => [.h, .l]
  | .psw => [.a, .sign, .zero, .interruptEnabled, .halfCarry, .carry]

/-- The fields an instruction's rule names as written by its effect, after the fetch (the flags are those of the table
under R27 in spec/10_state.md). -/
def mayWrite : Instr → List Field
  | .nop => []
  | .mov dst _ => Operand8.fields dst
  | .mvi r _ => Operand8.fields r
  | .lxi rp _ | .inx rp | .dcx rp => RegPair.fields rp
  | .lda _ | .ldax _ => [.a]
  | .sta _ | .shld _ | .stax _ => [.mem]
  | .lhld _ => [.h, .l]
  | .dad _ => [.h, .l, .carry]
  | .add _ | .adc _ | .sub _ | .sbb _ | .ana _ | .xra _ | .ora _ | .adi _ | .aci _ | .sui _ | .sbi _ | .ani _
  | .xri _ | .ori _ | .daa => [.a, .zero, .sign, .halfCarry, .carry]
  | .cmp _ | .cpi _ => [.zero, .sign, .halfCarry, .carry]
  | .inr r | .dcr r => Operand8.fields r ++ [.zero, .sign, .halfCarry]
  | .cma => [.a]
  | .rlc | .rrc | .ral | .rar => [.a, .carry]
  | .stc | .cmc => [.carry]
  | .di | .ei => [.interruptEnabled]
  | .jmp _ | .jnz _ | .jz _ | .jnc _ | .jc _ | .jp _ | .jm _ | .pchl => [.pc]
  | .call _ | .cnz _ | .cz _ | .cnc _ | .cc _ | .rst _ => [.pc, .sp, .mem]
  | .ret | .rnz | .rz | .rnc | .rc => [.pc, .sp]
  | .push _ => [.sp, .mem]
  | .pop rp => .sp :: StackPair.fields rp
  | .xchg => [.d, .e, .h, .l]
  | .xthl => [.h, .l, .mem]
  | .sphl => [.sp]
  | .out _ => [.portEvents]
  | .inp _ => [.a, .portInputs, .portEvents]
  | .invalid _ => [.crashed]

/-- The two bytes of a word access at `addr` (spec/20_memory.md R41). -/
def wordAt (addr : Word) : List Word := [addr, addr + 1]

/-- The byte a write of the operand `M` stores to, with the `HL` of the state it is written in. -/
def Operand8.storedAt (s : State) : Operand8 → List Word
  | .m => [s.hl]
  | .b | .c | .d | .e | .h | .l | .a => []

/-- The addresses of all bytes an instruction stores to, by the expressions of its meaning; empty for a form that stores
nothing. -/
def storedAddrs (i : Instr) (s : State) : List Word :=
  match i with
  | .mov dst _ => Operand8.storedAt s dst
  | .mvi r _ => Operand8.storedAt s r
  | .inr r | .dcr r => Operand8.storedAt s r
  | .stax rp => [s.indirectAddr rp]
  | .sta a16 => [a16]
  | .shld a16 => wordAt a16
  | .push _ | .call _ | .rst _ => wordAt (s.sp - 2)
  | .cnz _ => if s.holds .nz then wordAt (s.sp - 2) else []
  | .cz _ => if s.holds .z then wordAt (s.sp - 2) else []
  | .cnc _ => if s.holds .nc then wordAt (s.sp - 2) else []
  | .cc _ => if s.holds .c then wordAt (s.sp - 2) else []
  | .xthl => wordAt s.sp
  | .nop | .lxi _ _ | .inx _ | .rlc | .invalid _ | .dad _ | .ldax _ | .dcx _ | .rrc | .ral | .rar | .daa | .lhld _
  | .cma | .stc | .lda _ | .cmc | .add _ | .adc _ | .sub _ | .sbb _ | .ana _ | .xra _ | .ora _ | .cmp _ | .rnz
  | .pop _ | .jnz _ | .jmp _ | .adi _ | .rz | .ret | .jz _ | .aci _ | .rnc | .jnc _ | .out _ | .sui _ | .rc | .jc _
  | .inp _ | .sbi _ | .ani _ | .pchl | .xchg | .xri _ | .jp _ | .di | .ori _ | .sphl | .jm _ | .ei | .cpi _ => []

/-- "A jump, call, return, RST or PCHL" (spec/10_state.md R23). -/
def transfersControl : Instr → Bool
  | .jmp _ | .jnz _ | .jz _ | .jnc _ | .jc _ | .jp _ | .jm _ | .call _ | .cnz _ | .cz _ | .cnc _ | .cc _ | .ret
  | .rnz | .rz | .rnc | .rc | .rst _ | .pchl => true
  | .nop | .lxi _ _ | .stax _ | .inx _ | .inr _ | .dcr _ | .mvi _ _ | .rlc | .invalid _ | .dad _ | .ldax _ | .dcx _
  | .rrc | .ral | .rar | .shld _ | .daa | .lhld _ | .cma | .sta _ | .stc | .lda _ | .cmc | .mov _ _ | .add _
  | .adc _ | .sub _ | .sbb _ | .ana _ | .xra _ | .ora _ | .cmp _ | .pop _ | .push _ | .adi _ | .aci _ | .out _
  | .sui _ | .inp _ | .sbi _ | .xthl | .ani _ | .xchg | .xri _ | .di | .ori _ | .sphl | .ei | .cpi _ => false

/-! ### The ALU in plain numbers -/

/-- `A <- A + v + cin` with its flags: the carry out of bit 7, the carry out of bit 3, and `ZS` of the result
(spec/43_arith_logic.md R91, its second form of `half_carry`). -/
def State.sumResult (s : State) (v : Byte) (cin : Nat) : State :=
  let sum := s.a.toNat + v.toNat + cin
  { s with
    a := BitVec.ofNat 8 sum
    carry := decide (255 < sum)
    halfCarry := decide (15 < s.a.toNat % 16 + v.toNat % 16 + cin)
    zero := decide (sum % 256 = 0)
    sign := decide (128 ≤ sum % 256) }

/-- `(A - v - cin) mod 256` as a number. -/
def differenceNat (a v : Byte) (cin : Nat) : Nat := (a.toNat + 512 - v.toNat - cin) % 256

/-- The flags of `A - v - cin`: the borrow out of bit 7 (with R92's parameter), the borrow into bit 4, and `ZS` of the
result; the accumulator is not written. -/
def State.differenceFlags (s : State) (v : Byte) (cin : Nat) : State :=
  let d := differenceNat s.a v cin
  { s with
    carry := decide (s.a.toNat < v.toNat + cin ∧ (s.params.sbbZeroOperandBorrow = false → v ≠ 0))
    halfCarry := decide (s.a.toNat % 16 < v.toNat % 16 + cin)
    zero := decide (d = 0)
    sign := decide (128 ≤ d) }

/-- `A <- A - v - cin` with its flags (R92). -/
def State.differenceResult (s : State) (v : Byte) (cin : Nat) : State :=
  { s.differenceFlags v cin with a := BitVec.ofNat 8 (differenceNat s.a v cin) }

/-- `A <- r` with `carry` and `half_carry` cleared and `ZS(r)` (R93). -/
def State.logicResult (s : State) (r : Byte) : State :=
  { s with
    a := r
    carry := false
    halfCarry := false
    zero := decide (r.toNat = 0)
    sign := decide (128 ≤ r.toNat) }

/-- The packed BCD byte of a number below 100 (the "valid packed binary-coded-decimal byte" of the glossary). -/
def bcdByte (n : Nat) : Byte := BitVec.ofNat 8 (n / 10 * 16 + n % 10)

end Sys2Proof.Machine
end

