-- ==== Sys2Proof/Certificates/Slice0/Obligations.lean ====
section
/-! DEFINITION. The statements for the provers.  Each docstring names the rules of spec/ a statement formalises, or the
spec's decision or the log entry it rests on.  `exec` runs an instruction in the state its fetch leaves (PC just past
its bytes); `StepRunsTheFetchedInstruction` ties it to `step`.  An equation `exec i s = .next { s with ... }` is also the
instruction's completion and its frame: every field it does not list keeps its value.

A `DecodesTo` clause says which bytes encode the instruction.  Those byte values are the spec's decision D2, taken from
general knowledge of the 8080 (log entry 7); the docstrings say `Bytes: D2, log entry 7`. -/

open Sys2Proof Sys2Proof.Machine

/-! ### Reset and construction -/

/-- `reset()` gives every field of R15 except memory the value of R34's table and leaves memory, the parameters and the
environment alone.  `interrupt_enabled`, `interrupt_alternate` and the kept memory are the spec's decisions D25 and D20. -/
def Obligations.ResetGivesEveryFieldItsResetValue : Prop :=
  ∀ s : State,
    ((hostReset s).a = 0 ∧ (hostReset s).b = 0 ∧ (hostReset s).c = 0 ∧ (hostReset s).d = 0 ∧ (hostReset s).e = 0 ∧
      (hostReset s).h = 0 ∧ (hostReset s).l = 0 ∧ (hostReset s).bc = 0 ∧ (hostReset s).de = 0 ∧ (hostReset s).hl = 0 ∧
      (hostReset s).pc = 0 ∧ (hostReset s).sp = 0) ∧
    ((hostReset s).zero = false ∧ (hostReset s).sign = false ∧ (hostReset s).halfCarry = false ∧
      (hostReset s).carry = false ∧ (hostReset s).parity = false) ∧
    ((hostReset s).interruptEnabled = false ∧ (hostReset s).crashed = false ∧ (hostReset s).instructionCounter = 0 ∧
      (hostReset s).interruptAlternate = false) ∧
    ((hostReset s).mem = s.mem ∧ (hostReset s).params = s.params ∧ (hostReset s).portInputs = s.portInputs ∧
      (hostReset s).portEvents = s.portEvents)

/-- The state after reset that the host starts from: the reset state over a memory that reads 0x00 everywhere (the
spec's decisions D19, D20), with the default parameters of R7's table, no port call made. -/
def Obligations.ResetStateIsAConstructedCore : Prop :=
  (∀ a : Word, State.reset.readByte a = 0) ∧ hostReset State.reset = State.reset ∧
    construct defaultParams [] [] = .next State.reset ∧ State.reset.params.quota = 4000

/-- Construction (R160; decisions D19, D20): with a legal quota and an image of at most 65536 bytes a core is built;
byte `i` of memory is `image[i]`, every other byte 0x00, every other field at its reset value.  That the memory is in
canonical form and that the ready inputs are a field are the model's choices (log entries 2 and 4); that the parameters are
a field is log entry 1. -/
def Obligations.ConstructionLoadsTheImage : Prop :=
  ∀ (p : Params) (image inputs : List Byte), p.wf → image.length ≤ 65536 →
    ∃ t : State, construct p image inputs = .next t ∧
      (∀ a : Word, t.readByte a = image.getD a.toNat 0x00) ∧
      t.mem.wf = true ∧
      t = { State.reset with params := p, portInputs := inputs, mem := t.mem }

/-- Construction refuses a quota below 2 and an image longer than 65536 bytes (decisions D17, D20; I8, I13). -/
def Obligations.ConstructionRefusesBadArguments : Prop :=
  ∀ (p : Params) (image inputs : List Byte),
    (¬p.wf → construct p image inputs = .refused .quotaTooSmall) ∧
    (p.wf → 65536 < image.length → construct p image inputs = .refused .imageTooLong)

/-! ### Memory -/

/-- R38, R39: a byte store writes its byte and changes no other, and the read of a byte returns what is stored there. -/
def Obligations.ByteStoreChangesOneByte : Prop :=
  ∀ (m : Memory) (addr other : Word) (v : Byte),
    (m.writeByte addr v).readByte addr = v ∧
    (other ≠ addr → (m.writeByte addr v).readByte other = m.readByte other)

/-- R40, R41, R42: a word is two bytes, low byte at `addr`, high byte at `addr + 1 mod 65536`, for reads and writes; at
0xFFFF the high byte lies at 0x0000; no other byte changes. -/
def Obligations.WordAccessIsLittleEndianAndWraps : Prop :=
  ∀ (m : Memory) (addr other v : Word),
    (m.readWord addr).toNat = (m.readByte addr).toNat + 256 * (m.readByte (addr + 1)).toNat ∧
    ((m.writeWord addr v).readByte addr).toNat = v.toNat % 256 ∧
    ((m.writeWord addr v).readByte (addr + 1)).toNat = v.toNat / 256 ∧
    (other ≠ addr → other ≠ addr + 1 → (m.writeWord addr v).readByte other = m.readByte other) ∧
    (m.writeWord addr v).readWord addr = v ∧
    (0xFFFF : Word) + 1 = 0x0000

/-- The model's canonical form of memory (log entry 2): every store keeps it, and two memories in it that read alike at
every address are the same data. -/
def Obligations.CanonicalMemoryIsKeptAndUnique : Prop :=
  (∀ (m : Memory) (addr : Word) (v : Byte), m.wf = true → (m.writeByte addr v).wf = true) ∧
  (∀ m m' : Memory, m.wf = true → m'.wf = true → (∀ a : Word, m.readByte a = m'.readByte a) → m = m')

/-- R52, R165 (derived there): a byte stored at `PC` is the opcode the very next fetch reads. -/
def Obligations.StoreIsSeenByTheNextFetch : Prop :=
  ∀ (s : State) (op : Byte), s.params.implements op = true →
    (s.writeByte s.pc op).fetchInstr.1 =
      decodeOpcode op ((s.writeByte s.pc op).readByte (s.pc + 1)) ((s.writeByte s.pc op).readByte (s.pc + 2))

/-! ### Registers and operands -/

/-- R19, R20: the paired views are `(high << 8) | low` of the two halves, and writing a pair writes both halves at once
and nothing else, so the view reads back the value. -/
def Obligations.PairedViewsFollowTheirHalves : Prop :=
  ∀ (s : State) (v : Word),
    (s.bc.toNat = s.b.toNat * 256 + s.c.toNat ∧ s.de.toNat = s.d.toNat * 256 + s.e.toNat ∧
      s.hl.toNat = s.h.toNat * 256 + s.l.toNat) ∧
    s.setBC v = { s with b := BitVec.ofNat 8 (v.toNat / 256), c := BitVec.ofNat 8 (v.toNat % 256) } ∧
    s.setDE v = { s with d := BitVec.ofNat 8 (v.toNat / 256), e := BitVec.ofNat 8 (v.toNat % 256) } ∧
    s.setHL v = { s with h := BitVec.ofNat 8 (v.toNat / 256), l := BitVec.ofNat 8 (v.toNat % 256) } ∧
    (s.setBC v).bc = v ∧ (s.setDE v).de = v ∧ (s.setHL v).hl = v

/-- The operand each register code selects, for reads and for writes; `M` is the byte at `HL` (R56, R21; the codes are
the spec's decision D2). -/
def Obligations.OperandCodesSelectTheirRegister : Prop :=
  ∀ (s : State) (v : Byte) (w : Word),
    ((s.readOperand .b = s.b ∧ s.readOperand .c = s.c ∧ s.readOperand .d = s.d ∧ s.readOperand .e = s.e ∧
      s.readOperand .h = s.h ∧ s.readOperand .l = s.l ∧ s.readOperand .m = s.mem.readByte s.hl ∧
      s.readOperand .a = s.a) ∧
    (s.writeOperand .b v = { s with b := v } ∧ s.writeOperand .c v = { s with c := v } ∧
      s.writeOperand .d v = { s with d := v } ∧ s.writeOperand .e v = { s with e := v } ∧
      s.writeOperand .h v = { s with h := v } ∧ s.writeOperand .l v = { s with l := v } ∧
      s.writeOperand .m v = { s with mem := s.mem.writeByte s.hl v } ∧ s.writeOperand .a v = { s with a := v })) ∧
    ((s.readPair .bc = s.bc ∧ s.readPair .de = s.de ∧ s.readPair .hl = s.hl ∧ s.readPair .sp = s.sp) ∧
    (s.writePair .bc w = s.setBC w ∧ s.writePair .de w = s.setDE w ∧ s.writePair .hl w = s.setHL w ∧
      s.writePair .sp w = { s with sp := w })) ∧
    (List.map Operand8.code [.b, .c, .d, .e, .h, .l, .m, .a] = [0, 1, 2, 3, 4, 5, 6, 7] ∧
      List.map RegPair.code [.bc, .de, .hl, .sp] = [0, 1, 2, 3])

/-! ### Encoding -/

/-- Decoding the encoding of a well-formed instruction gives it back, whatever bytes follow. -/
def Obligations.DecodeOfEncodeIsTheInstruction : Prop :=
  ∀ (i : Instr) (rest : List Byte), WellFormed i → decode (encode i ++ rest) = .ok (i, rest)

/-- Whatever bytes decode, they are the encoding of the instruction read, followed by the bytes left: no byte and no bit
of an instruction is dropped, and each instruction has one encoding. -/
def Obligations.EncodeOfDecodeIsTheBytes : Prop :=
  ∀ (bytes rest : List Byte) (i : Instr), decode bytes = .ok (i, rest) → WellFormed i ∧ encode i ++ rest = bytes

/-- A few words written out from the `Encoding:` lines (the byte values are the spec's decision D2). -/
def Obligations.SampleWordsDecode : Prop :=
  DecodesTo [0b00000000] .nop ∧ DecodesTo [0b01000001] (.mov .b .c) ∧ DecodesTo [0b00110110, 0x7E] (.mvi .m 0x7E) ∧
  DecodesTo [0b00110001, 0x00, 0x24] (.lxi .sp 0x2400) ∧ DecodesTo [0b10011110] (.sbb .m) ∧
  DecodesTo [0b11000010, 0x34, 0x12] (.jnz 0x1234) ∧ DecodesTo [0b11001111] (.rst 1) ∧
  DecodesTo [0b11110101] (.push .psw) ∧ DecodesTo [0b11011011, 0x01] (.inp 0x01) ∧
  DecodesTo [0b01110110] (.invalid 0x76) ∧ decodeTableWord 8 0xE3 = some .xthl

/-- Dispatch is total, and exactly the 23 bytes of R66's first table are invalid, whatever follows them (R65 to R67;
decisions D1, D9, D10, D11). -/
def Obligations.UndefinedBytesAreExactlyTheTable : Prop :=
  undefinedOpcodes.length = 23 ∧ undefinedOpcodes.Nodup ∧
  ∀ op lo hi : Byte,
    (op ∈ undefinedOpcodes → decodeOpcode op lo hi = .invalid op) ∧
    (op ∉ undefinedOpcodes → ∀ op', decodeOpcode op lo hi ≠ .invalid op') ∧
    (defaultParams.implements op = true ↔ op ∉ undefinedOpcodes)

/-- R54, R68: the opcode byte alone fixes the length, which is 1, 2 or 3, and the encoding has that many bytes. -/
def Obligations.OpcodeFixesTheLength : Prop :=
  ∀ op lo hi : Byte,
    (decodeOpcode op lo hi).length = opcodeLength op ∧ 1 ≤ opcodeLength op ∧ opcodeLength op ≤ 3 ∧
    (encode (decodeOpcode op lo hi)).length = opcodeLength op

/-! ### The step -/

/-- A step runs the instruction its bytes decode to (R64, R138): when the core runs and the bytes at `PC` decode to `i`
and the opcode is implemented, the step is the effect of `i` in the state with `PC` past its bytes, followed by the
scheduler. -/
def Obligations.StepRunsTheFetchedInstruction : Prop :=
  ∀ (s : State) (i : Instr) (rest : List Byte), s.crashed = false →
    s.params.implements (s.readByte s.pc) = true →
    decode [s.readByte s.pc, s.readByte (s.pc + 1), s.readByte (s.pc + 2)] = .ok (i, rest) →
    step s = finish (exec i { s with pc := s.pc + BitVec.ofNat 16 i.length })

/-- R29, R141: a crashed core does nothing, however often it is asked to, and the host is told `Noop`; `reset()` clears
`crashed`; and a running core's step sets it exactly when the byte at `PC` is not implemented. -/
def Obligations.CrashedCoreDoesNothing : Prop :=
  ∀ (s t : State) (index n : Nat),
    (s.crashed = true →
      step s = .next s ∧ iteration index s = .next (.noop, s) ∧ Host.Core.run Sys2Proof.core n s = .next s) ∧
    (hostReset s).crashed = false ∧
    (s.crashed = false → step s = .next t → (t.crashed = true ↔ s.params.implements (s.readByte s.pc) = false))

/-- InvalidOpcode (R139, R140): an opcode outside `IMPLEMENTED` sets `crashed` and changes nothing else (`PC` stays at it,
nothing is counted), and the host gets the diagnostic.  `PC`, the index and the count are the spec's decisions D12, D13,
D15. -/
def Obligations.InvalidOpcodeCrashes : Prop :=
  (∀ (op : Byte) (s : State), exec (.invalid op) s = .next { s with crashed := true }) ∧
  ∀ (s : State) (index : Nat), s.crashed = false → s.params.implements (s.readByte s.pc) = false →
    step s = .next { s with crashed := true } ∧
    iteration index s =
      .next (.crashed { instructionIndex := index, opcode := s.readByte s.pc, pc := s.pc }, { s with crashed := true })

/-- R153: nothing the core does raises into the host: every instruction and every step answers a next state. -/
def Obligations.NothingFaultsOrRefuses : Prop :=
  (∀ (i : Instr) (s : State), ∃ t, exec i s = .next t) ∧ (∀ s : State, ∃ t, step s = .next t) ∧
  (∀ (s : State) (index : Nat), ∃ r t, iteration index s = .next (r, t))

/-- Every step keeps the invariant: a legal quota, memory in canonical form, the counter in `0 .. Q/2 - 1` (R30), `parity`
false (R27). -/
def Obligations.StepKeepsTheInvariant : Prop :=
  ∀ s t : State, s.Inv → step s = .next t → t.Inv

/-- The invariant holds right after reset, and `reset()` establishes its counter and parity parts from any state whose
parameters and memory are legal. -/
def Obligations.ResetHasTheInvariant : Prop :=
  State.reset.Inv ∧ ∀ s : State, s.params.wf → s.mem.wf = true → (hostReset s).Inv

/-- R27: no step reads `parity` and no step writes it: two states that differ only in `parity` step to states that differ
only in it, and `parity` keeps its value; `reset` makes it false. -/
def Obligations.ParityIsNeverReadNorWritten : Prop :=
  ∀ (s : State) (p : Bool),
    (∀ t, step s = .next t → t.parity = s.parity ∧ step { s with parity := p } = .next { t with parity := p }) ∧
    (hostReset s).parity = false

/-- R23: an instruction that does not transfer control leaves `PC` just past its bytes, measured before the scheduler's
check. -/
def Obligations.PcAdvancesPastTheInstruction : Prop :=
  ∀ s t : State, s.params.implements (s.readByte s.pc) = true → transfersControl s.fetchInstr.1 = false →
    exec s.fetchInstr.1 s.fetchInstr.2 = .next t →
    t.pc = s.pc + BitVec.ofNat 16 (opcodeLength (s.readByte s.pc))

/-! ### Frames -/

/-- R26, for flags and for every other field: an instruction changes no field its rule does not name as written. -/
def Obligations.InstructionsKeepWhatTheyDoNotName : Prop :=
  ∀ (i : Instr) (s t : State) (f : Field), exec i s = .next t → f ∉ mayWrite i → f.Same s t

/-- Every byte of memory an instruction does not store to reads as before; for a form that stores nothing, every byte. -/
def Obligations.InstructionsStoreOnlyTheirBytes : Prop :=
  ∀ (i : Instr) (s t : State) (addr : Word), exec i s = .next t → addr ∉ storedAddrs i s →
    t.readByte addr = s.readByte addr

/-- An instruction other than IN leaves the environment's ready answers alone; one that is neither IN nor OUT also makes no
port call, and does the same whatever the environment has ready and whatever calls were made before: no other instruction
touches the port space (R122). -/
def Obligations.OnlyPortInstructionsTouchThePorts : Prop :=
  ∀ (i : Instr) (s t : State) (inputs : List Byte) (events : List PortEvent), exec i s = .next t →
    ((∀ port, i ≠ .inp port) → t.portInputs = s.portInputs ∧
      ((∀ port, i ≠ .out port) → t.portEvents = s.portEvents ∧
        exec i { s with portInputs := inputs, portEvents := events } =
          .next { t with portInputs := inputs, portEvents := events }))

/-! ### The scheduler -/

/-- R143, R144, R145 on one step: an executed instruction is counted; at the count `Q div 2` the core injects if
`interrupt_enabled` holds after the instruction, and the counter returns to 0 whether or not it did. -/
def Obligations.SchedulerCountsAndChecks : Prop :=
  ∀ s : State, s.crashed = false → s.params.implements (s.readByte s.pc) = true →
    ∃ t, exec s.fetchInstr.1 s.fetchInstr.2 = .next t ∧
      (s.instructionCounter + 1 ≠ s.params.quota / 2 →
        step s = .next { t with instructionCounter := s.instructionCounter + 1 }) ∧
      (s.instructionCounter + 1 = s.params.quota / 2 → t.interruptEnabled = false →
        step s = .next { t with instructionCounter := 0 }) ∧
      (s.instructionCounter + 1 = s.params.quota / 2 → t.interruptEnabled = true →
        step s = .next { t.inject with instructionCounter := 0 })

/-- R145 (the vector of each value of `interrupt_alternate` is the spec's decision D16): the injection pushes `PC`, goes
to the vector, flips the alternation and disables interrupts; no other field changes and no other byte. -/
def Obligations.InjectionPushesPcAndGoesToTheVector : Prop :=
  ∀ (s : State) (other : Word),
    s.inject =
      { s with
        sp := s.sp - 2
        mem := s.inject.mem
        pc := if s.interruptAlternate = true then 0x0010 else 0x0008
        interruptAlternate := !s.interruptAlternate
        interruptEnabled := false } ∧
    (s.inject.readByte (s.sp - 2)).toNat = s.pc.toNat % 256 ∧
    (s.inject.readByte (s.sp - 1)).toNat = s.pc.toNat / 256 ∧
    (other ≠ s.sp - 2 → other ≠ s.sp - 1 → s.inject.readByte other = s.readByte other)

/-- R31, R28: in one step `interrupt_alternate` changes only by an injection, and then `PC` is at the vector the old value
selects, interrupts are disabled and the counter is 0. -/
def Obligations.AlternationChangesOnlyByInjection : Prop :=
  ∀ s t : State, step s = .next t → t.interruptAlternate ≠ s.interruptAlternate →
    t.pc = (if s.interruptAlternate = true then 0x0010 else 0x0008) ∧ t.interruptEnabled = false ∧
    t.instructionCounter = 0 ∧ t.crashed = false ∧ s.instructionCounter + 1 = s.params.quota / 2

/-- R143, R144 over any number of steps: from every state of the invariant, after `n` steps that did not crash the counter
is the old one plus `n`, modulo `Q div 2`: the checks fall after every `Q div 2` executed instructions and nowhere else. -/
def Obligations.CounterIsTheStepCountModuloThePeriod : Prop :=
  ∀ (n : Nat) (s t : State), s.Inv → Host.Core.run Sys2Proof.core n s = .next t → t.crashed = false →
    t.instructionCounter = (s.instructionCounter + n) % (s.params.quota / 2)

/-- R148 with R76 and R145: RET right after an injection returns to the interrupted address with `SP` restored; it does not
restore `interrupt_enabled`. -/
def Obligations.RetReturnsFromAnInjection : Prop :=
  ∀ s : State,
    exec .ret s.inject =
      .next { s with mem := s.inject.mem, interruptAlternate := !s.interruptAlternate, interruptEnabled := false }

/-! ### Host operations -/

/-- R151, R152, R153, R140: `run_frame` is `Q` iterations.  Its state is that of `Q` steps; it answers `AlreadyCrashed`
exactly when the core was crashed before, `Completed` exactly when no crash shows at the end, and otherwise the
diagnostic of the one iteration that crashed. -/
def Obligations.RunFrameIsQuotaIterations : Prop :=
  ∀ s : State, ∃ (r : FrameResult) (t : State),
    runFrame s = .next (r, t) ∧ Host.Core.run Sys2Proof.core s.params.quota s = .next t ∧
    (r = .alreadyCrashed ↔ s.crashed = true) ∧ (r = .completed ↔ t.crashed = false) ∧
    (∀ diag : Diagnostic, r = .crashed diag ↔
      ∃ (k : Nat) (u : State), k < s.params.quota ∧ Host.Core.run Sys2Proof.core k s = .next u ∧ u.crashed = false ∧
        u.params.implements (u.readByte u.pc) = false ∧
        diag = { instructionIndex := k, opcode := u.readByte u.pc, pc := u.pc })

/-- R152: `step()` is one iteration with index 0; its state is the step's, its result that of R153. -/
def Obligations.HostStepIsOneIteration : Prop :=
  ∀ s t : State, step s = .next t →
    ∃ r, hostStep s = .next (r, t) ∧
      (r = .noop ↔ s.crashed = true) ∧
      (r = .executed ↔ s.crashed = false ∧ t.crashed = false) ∧
      (∀ diag, r = .crashed diag ↔
        (s.crashed = false ∧ t.crashed = true ∧
          diag = { instructionIndex := 0, opcode := s.readByte s.pc, pc := s.pc }))

/-! ### Stack (spec/42_stack.md) -/

/-- R80, R81: `push16` lowers `SP` by 2 and stores the low byte at the new `SP`, the high byte above it; `pop16` reads the
word at `SP` and raises `SP` by 2; both wrap, and nothing else changes. -/
def Obligations.PushAndPopPrimitives : Prop :=
  ∀ (s : State) (v other : Word),
    s.push16 v = { s with sp := s.sp - 2, mem := (s.push16 v).mem } ∧
    ((s.push16 v).readByte (s.sp - 2)).toNat = v.toNat % 256 ∧
    ((s.push16 v).readByte (s.sp - 1)).toNat = v.toNat / 256 ∧
    (other ≠ s.sp - 2 → other ≠ s.sp - 1 → (s.push16 v).readByte other = s.readByte other) ∧
    s.popValue.toNat = (s.readByte s.sp).toNat + 256 * (s.readByte (s.sp + 1)).toNat ∧
    s.popped = { s with sp := s.sp + 2 } ∧
    (s.push16 v).popValue = v

/-- R82: the bits of the flag byte and the place of `A` and `F` in the pair (the spec's reading C3, log entry 23). -/
def Obligations.FlagByteLayout : Prop :=
  ∀ s : State,
    (s.flagByte.getLsbD 7 = s.sign ∧ s.flagByte.getLsbD 6 = s.zero ∧ s.flagByte.getLsbD 5 = s.interruptEnabled ∧
      s.flagByte.getLsbD 4 = s.halfCarry ∧ s.flagByte.getLsbD 3 = false ∧ s.flagByte.getLsbD 2 = false ∧
      s.flagByte.getLsbD 1 = false ∧ s.flagByte.getLsbD 0 = s.carry) ∧
    s.psw.toNat = s.a.toNat * 256 + s.flagByte.toNat ∧
    (s.push16 s.psw).readByte (s.sp - 2) = s.flagByte ∧ (s.push16 s.psw).readByte (s.sp - 1) = s.a

/-- R83, R84: PUSH pushes the pair's value and changes nothing but `SP` and the two stored bytes.
Bytes: D2, log entry 7. -/
def Obligations.PushStoresThePair : Prop :=
  (DecodesTo [0xC5] (.push .bc) ∧ DecodesTo [0xD5] (.push .de) ∧ DecodesTo [0xE5] (.push .hl) ∧
    DecodesTo [0xF5] (.push .psw)) ∧
  ∀ s : State,
    exec (.push .bc) s = .next { s with sp := s.sp - 2, mem := s.mem.writeWord (s.sp - 2) s.bc } ∧
    exec (.push .de) s = .next { s with sp := s.sp - 2, mem := s.mem.writeWord (s.sp - 2) s.de } ∧
    exec (.push .hl) s = .next { s with sp := s.sp - 2, mem := s.mem.writeWord (s.sp - 2) s.hl } ∧
    exec (.push .psw) s = .next { s with sp := s.sp - 2, mem := s.mem.writeWord (s.sp - 2) s.psw }

/-- R85, R86: POP loads the word at `SP` into the pair and raises `SP` by 2; POP PSW writes `A`, the four live flags and
`interrupt_enabled` from the popped bytes and leaves `parity` alone.  Bytes: D2, log entry 7. -/
def Obligations.PopLoadsThePair : Prop :=
  (DecodesTo [0xC1] (.pop .bc) ∧ DecodesTo [0xD1] (.pop .de) ∧ DecodesTo [0xE1] (.pop .hl) ∧
    DecodesTo [0xF1] (.pop .psw)) ∧
  ∀ s : State,
    exec (.pop .bc) s =
      .next { s with sp := s.sp + 2, b := s.mem.readByte (s.sp + 1), c := s.mem.readByte s.sp } ∧
    exec (.pop .de) s =
      .next { s with sp := s.sp + 2, d := s.mem.readByte (s.sp + 1), e := s.mem.readByte s.sp } ∧
    exec (.pop .hl) s =
      .next { s with sp := s.sp + 2, h := s.mem.readByte (s.sp + 1), l := s.mem.readByte s.sp } ∧
    exec (.pop .psw) s =
      .next { s with
        sp := s.sp + 2
        a := s.mem.readByte (s.sp + 1)
        sign := (s.mem.readByte s.sp).getLsbD 7
        zero := (s.mem.readByte s.sp).getLsbD 6
        interruptEnabled := (s.mem.readByte s.sp).getLsbD 5
        halfCarry := (s.mem.readByte s.sp).getLsbD 4
        carry := (s.mem.readByte s.sp).getLsbD 0 }

/-- R87, R88: XCHG exchanges `DE` and `HL`; XTHL exchanges `HL` with the word at `SP` and leaves `SP` alone.
Bytes: D2, log entry 7. -/
def Obligations.ExchangeInstructions : Prop :=
  (DecodesTo [0xEB] .xchg ∧ DecodesTo [0xE3] .xthl) ∧
  ∀ s : State,
    exec .xchg s = .next { s with d := s.h, e := s.l, h := s.d, l := s.e } ∧
    exec .xthl s =
      .next { s with
        h := s.mem.readByte (s.sp + 1)
        l := s.mem.readByte s.sp
        mem := (s.mem.writeByte s.sp s.l).writeByte (s.sp + 1) s.h }

/-- R89: SPHL (the spec's decision D3).  Bytes: D2, log entry 7. -/
def Obligations.SphlLoadsSp : Prop :=
  DecodesTo [0xF9] .sphl ∧ ∀ s : State, exec .sphl s = .next { s with sp := s.hl }

/-- "PUSH of register pair X followed immediately by POP into the same pair restores X's exact original value", for every
pair and with it the whole state but the two stored bytes (R85, R86 corner cases). -/
def Obligations.PushThenPopRestores : Prop :=
  ∀ (s : State) (rp : StackPair), ∃ t,
    exec (.push rp) s = .next t ∧ exec (.pop rp) t = .next { s with mem := t.mem }

/-- XCHG twice restores the state; XTHL twice restores every register and every byte (R87, R88 corner cases). -/
def Obligations.ExchangingTwiceRestores : Prop :=
  ∀ s : State,
    (∃ t, exec .xchg s = .next t ∧ exec .xchg t = .next s) ∧
    (∃ t u, exec .xthl s = .next t ∧ exec .xthl t = .next u ∧ u = { s with mem := u.mem } ∧
      ∀ addr : Word, u.readByte addr = s.readByte addr)

/-! ### Control transfer (spec/41_control_transfer.md) -/

/-- R72, R73: JMP and the six conditional jumps: `PC` is the target when the condition holds and stays past the instruction
when it does not; nothing else changes.  Bytes: D2, log entry 7. -/
def Obligations.JumpInstructions : Prop :=
  (∀ lo hi : Byte,
    DecodesTo [0xC3, lo, hi] (.jmp (mkWord hi lo)) ∧ DecodesTo [0xC2, lo, hi] (.jnz (mkWord hi lo)) ∧
    DecodesTo [0xCA, lo, hi] (.jz (mkWord hi lo)) ∧ DecodesTo [0xD2, lo, hi] (.jnc (mkWord hi lo)) ∧
    DecodesTo [0xDA, lo, hi] (.jc (mkWord hi lo)) ∧ DecodesTo [0xF2, lo, hi] (.jp (mkWord hi lo)) ∧
    DecodesTo [0xFA, lo, hi] (.jm (mkWord hi lo)) ∧ DecodesTo [0xE2] (.invalid 0xE2) ∧
    DecodesTo [0xEA] (.invalid 0xEA)) ∧
  ∀ (s : State) (t : Word),
    exec (.jmp t) s = .next { s with pc := t } ∧
    exec (.jnz t) s = .next { s with pc := if s.zero = false then t else s.pc } ∧
    exec (.jz t) s = .next { s with pc := if s.zero = true then t else s.pc } ∧
    exec (.jnc t) s = .next { s with pc := if s.carry = false then t else s.pc } ∧
    exec (.jc t) s = .next { s with pc := if s.carry = true then t else s.pc } ∧
    exec (.jp t) s = .next { s with pc := if s.sign = false then t else s.pc } ∧
    exec (.jm t) s = .next { s with pc := if s.sign = true then t else s.pc }

/-- R74, R75: CALL and the four conditional calls: when the condition holds `PC`, which is the address after the
instruction, is pushed and becomes the target; when it does not, nothing changes.  Bytes: D2, log entry 7. -/
def Obligations.CallInstructions : Prop :=
  (∀ lo hi : Byte,
    DecodesTo [0xCD, lo, hi] (.call (mkWord hi lo)) ∧ DecodesTo [0xC4, lo, hi] (.cnz (mkWord hi lo)) ∧
    DecodesTo [0xCC, lo, hi] (.cz (mkWord hi lo)) ∧ DecodesTo [0xD4, lo, hi] (.cnc (mkWord hi lo)) ∧
    DecodesTo [0xDC, lo, hi] (.cc (mkWord hi lo)) ∧ DecodesTo [0xE4] (.invalid 0xE4) ∧
    DecodesTo [0xEC] (.invalid 0xEC) ∧ DecodesTo [0xF4] (.invalid 0xF4) ∧ DecodesTo [0xFC] (.invalid 0xFC)) ∧
  ∀ (s c : State) (t : Word), c = { s with sp := s.sp - 2, mem := s.mem.writeWord (s.sp - 2) s.pc, pc := t } →
    exec (.call t) s = .next c ∧
    exec (.cnz t) s = .next (if s.zero = false then c else s) ∧
    exec (.cz t) s = .next (if s.zero = true then c else s) ∧
    exec (.cnc t) s = .next (if s.carry = false then c else s) ∧
    exec (.cc t) s = .next (if s.carry = true then c else s)

/-- R76, R77: RET and the four conditional returns: `PC` is the word at `SP` and `SP` rises by 2 when the condition holds;
nothing changes when it does not.  Bytes: D2, log entry 7. -/
def Obligations.ReturnInstructions : Prop :=
  (DecodesTo [0xC9] .ret ∧ DecodesTo [0xC0] .rnz ∧ DecodesTo [0xC8] .rz ∧ DecodesTo [0xD0] .rnc ∧
    DecodesTo [0xD8] .rc ∧ DecodesTo [0xE0] (.invalid 0xE0) ∧ DecodesTo [0xE8] (.invalid 0xE8) ∧
    DecodesTo [0xF0] (.invalid 0xF0) ∧ DecodesTo [0xF8] (.invalid 0xF8)) ∧
  ∀ s r : State, r = { s with sp := s.sp + 2, pc := s.mem.readWord s.sp } →
    exec .ret s = .next r ∧
    exec .rnz s = .next (if s.zero = false then r else s) ∧
    exec .rz s = .next (if s.zero = true then r else s) ∧
    exec .rnc s = .next (if s.carry = false then r else s) ∧
    exec .rc s = .next (if s.carry = true then r else s)

/-- R78, R79: RST n pushes `PC` and goes to `n * 8`, without touching `interrupt_enabled`; PCHL goes to `HL`.
Bytes: D2, log entry 7. -/
def Obligations.RstAndPchl : Prop :=
  ((∀ n : BitVec 3, DecodesTo [BitVec.ofNat 8 (0xC7 + 8 * n.toNat)] (.rst n)) ∧ DecodesTo [0xE9] .pchl) ∧
  ∀ (s : State) (n : BitVec 3), ∃ t,
    exec (.rst n) s = .next t ∧
    t = { s with sp := s.sp - 2, mem := s.mem.writeWord (s.sp - 2) s.pc, pc := t.pc } ∧
    t.pc.toNat = n.toNat * 8 ∧
    exec .pchl s = .next { s with pc := s.hl }

/-- A CALL followed by RET comes back to the address after the CALL with the state as before, but for the two stored
bytes (R74, R76). -/
def Obligations.CallThenRetComesBack : Prop :=
  ∀ (s : State) (target : Word), ∃ t,
    exec (.call target) s = .next t ∧ t.pc = target ∧ exec .ret t = .next { s with mem := t.mem }

/-! ### The ALU (spec/43_arith_logic.md) -/

/-- R91, R94, R95, R102, R103: the addition forms, in plain numbers, for every operand; the `half_carry` bit of R91's
formula is the carry out of bit 3.  Bytes: D2, log entry 7. -/
def Obligations.AdditionForms : Prop :=
  (∀ (r : Operand8) (d8 : Byte),
    DecodesTo [BitVec.ofNat 8 (0x80 + r.code)] (.add r) ∧ DecodesTo [BitVec.ofNat 8 (0x88 + r.code)] (.adc r) ∧
    DecodesTo [0xC6, d8] (.adi d8) ∧ DecodesTo [0xCE, d8] (.aci d8)) ∧
  (∀ (s : State) (r : Operand8) (d8 : Byte),
    exec (.add r) s = .next (s.sumResult (s.readOperand r) 0) ∧
    exec (.adc r) s = .next (s.sumResult (s.readOperand r) (if s.carry = true then 1 else 0)) ∧
    exec (.adi d8) s = .next (s.sumResult d8 0) ∧
    exec (.aci d8) s = .next (s.sumResult d8 (if s.carry = true then 1 else 0))) ∧
  ∀ a v : Byte, ∀ cin : Nat, cin ≤ 1 →
    ((((a.toNat ^^^ v.toNat ^^^ (a.toNat + v.toNat + cin)) &&& 0x10) ≠ 0) ↔ 15 < a.toNat % 16 + v.toNat % 16 + cin)

/-- R92, R96, R97, R101, R104, R105, R109: the subtraction and comparison forms, in plain numbers, for every operand and
both readings of the zero-operand borrow (the forms are decision D4, the borrow decision D5); CMP and CPI do not write
`A` and use no incoming carry.  Bytes: D2, log entry 7. -/
def Obligations.SubtractionForms : Prop :=
  (∀ (r : Operand8) (d8 : Byte),
    DecodesTo [BitVec.ofNat 8 (0x90 + r.code)] (.sub r) ∧ DecodesTo [BitVec.ofNat 8 (0x98 + r.code)] (.sbb r) ∧
    DecodesTo [BitVec.ofNat 8 (0xB8 + r.code)] (.cmp r) ∧ DecodesTo [0xD6, d8] (.sui d8) ∧
    DecodesTo [0xDE, d8] (.sbi d8) ∧ DecodesTo [0xFE, d8] (.cpi d8)) ∧
  ∀ (s : State) (r : Operand8) (d8 : Byte),
    exec (.sub r) s = .next (s.differenceResult (s.readOperand r) 0) ∧
    exec (.sbb r) s = .next (s.differenceResult (s.readOperand r) (if s.carry = true then 1 else 0)) ∧
    exec (.cmp r) s = .next (s.differenceFlags (s.readOperand r) 0) ∧
    exec (.sui d8) s = .next (s.differenceResult d8 0) ∧
    exec (.sbi d8) s = .next (s.differenceResult d8 (if s.carry = true then 1 else 0)) ∧
    exec (.cpi d8) s = .next (s.differenceFlags d8 0)

/-- R93, R98, R99, R100, R106, R107, R108: AND, exclusive OR and OR, for every operand (the forms are decision D4):
`carry` and `half_carry` are cleared, `zero` and `sign` come from the result.  Bytes: D2, log entry 7. -/
def Obligations.LogicForms : Prop :=
  (∀ (r : Operand8) (d8 : Byte),
    DecodesTo [BitVec.ofNat 8 (0xA0 + r.code)] (.ana r) ∧ DecodesTo [BitVec.ofNat 8 (0xA8 + r.code)] (.xra r) ∧
    DecodesTo [BitVec.ofNat 8 (0xB0 + r.code)] (.ora r) ∧ DecodesTo [0xE6, d8] (.ani d8) ∧
    DecodesTo [0xEE, d8] (.xri d8) ∧ DecodesTo [0xF6, d8] (.ori d8)) ∧
  ∀ (s : State) (r : Operand8) (d8 : Byte),
    exec (.ana r) s = .next (s.logicResult (s.a &&& s.readOperand r)) ∧
    exec (.xra r) s = .next (s.logicResult (s.a ^^^ s.readOperand r)) ∧
    exec (.ora r) s = .next (s.logicResult (s.a ||| s.readOperand r)) ∧
    exec (.ani d8) s = .next (s.logicResult (s.a &&& d8)) ∧
    exec (.xri d8) s = .next (s.logicResult (s.a ^^^ d8)) ∧
    exec (.ori d8) s = .next (s.logicResult (s.a ||| d8))

/-- R110, R111 (the `half_carry` formula is decision D6): INR and DCR of every operand write the operand plus or minus 1
`mod 256`, `zero`, `sign` and `half_carry`, and never `carry`.  Bytes: D2, log entry 7. -/
def Obligations.IncrementAndDecrement : Prop :=
  (∀ r : Operand8,
    DecodesTo [BitVec.ofNat 8 (0x04 + 8 * r.code)] (.inr r) ∧
    DecodesTo [BitVec.ofNat 8 (0x05 + 8 * r.code)] (.dcr r)) ∧
  ∀ (s : State) (r : Operand8),
    exec (.inr r) s =
      .next { s.writeOperand r (s.readOperand r + 1) with
        zero := decide ((s.readOperand r).toNat = 255)
        sign := decide (127 ≤ (s.readOperand r).toNat ∧ (s.readOperand r).toNat < 255)
        halfCarry := decide ((s.readOperand r).toNat % 16 = 15) } ∧
    exec (.dcr r) s =
      .next { s.writeOperand r (s.readOperand r - 1) with
        zero := decide ((s.readOperand r).toNat = 1)
        sign := decide ((s.readOperand r).toNat = 0 ∨ 129 ≤ (s.readOperand r).toNat)
        halfCarry := decide ((s.readOperand r).toNat % 16 = 0) }

/-- R112 (decision D7 on the mask): DAA in plain numbers.  `low` is the value after the first step, `t` that value as the
second step sees it.  Bytes: D2, log entry 7. -/
def Obligations.DecimalAdjust : Prop :=
  DecodesTo [0x27] .daa ∧
  ∀ (s : State) (adj : Bool) (low t : Nat) (adj2 : Bool) (r : Nat),
    adj = decide (9 < s.a.toNat % 16 ∨ s.halfCarry = true) →
    low = s.a.toNat + (if adj = true then 6 else 0) →
    t = (if s.params.daaMaskIntermediate = true then low % 256 else low) →
    adj2 = decide (159 < t ∨ s.carry = true) →
    r = (t + (if adj2 = true then 96 else 0)) % 256 →
    exec .daa s =
      .next { s with
        a := BitVec.ofNat 8 r
        halfCarry := adj
        carry := adj2
        zero := decide (r = 0)
        sign := decide (128 ≤ r) }

/-- DAA makes the sum of two packed decimal bytes the packed decimal sum, with the decimal carry in `carry`, under the
default reading of the intermediate value (decision D7; the glossary's "post-arithmetic correction producing a valid
packed binary-coded-decimal byte"). -/
def Obligations.DaaCorrectsDecimalAddition : Prop :=
  ∀ (s t : State) (r : Operand8) (x y : Nat), s.params.daaMaskIntermediate = false → x < 100 → y < 100 →
    s.a = bcdByte x → s.readOperand r = bcdByte y → exec (.adc r) s = .next t →
    ∃ u, exec .daa t = .next u ∧ u.a = bcdByte ((x + y + (if s.carry = true then 1 else 0)) % 100) ∧
      u.carry = decide (100 ≤ x + y + (if s.carry = true then 1 else 0))

/-- R113 to R117: CMA and the four rotates, in plain numbers; the rotates write `carry` and no other flag, CMA none.
Bytes: D2, log entry 7. -/
def Obligations.ComplementAndRotates : Prop :=
  (DecodesTo [0x2F] .cma ∧ DecodesTo [0x07] .rlc ∧ DecodesTo [0x0F] .rrc ∧ DecodesTo [0x17] .ral ∧
    DecodesTo [0x1F] .rar) ∧
  ∀ s : State,
    exec .cma s = .next { s with a := BitVec.ofNat 8 (255 - s.a.toNat) } ∧
    exec .rlc s =
      .next { s with a := BitVec.ofNat 8 (2 * s.a.toNat + s.a.toNat / 128), carry := decide (128 ≤ s.a.toNat) } ∧
    exec .rrc s =
      .next { s with
        a := BitVec.ofNat 8 (s.a.toNat / 2 + 128 * (s.a.toNat % 2)), carry := decide (s.a.toNat % 2 = 1) } ∧
    exec .ral s =
      .next { s with
        a := BitVec.ofNat 8 (2 * s.a.toNat + (if s.carry = true then 1 else 0)), carry := decide (128 ≤ s.a.toNat) } ∧
    exec .rar s =
      .next { s with
        a := BitVec.ofNat 8 (s.a.toNat / 2 + (if s.carry = true then 128 else 0))
        carry := decide (s.a.toNat % 2 = 1) }

/-- RAL and RAR undo each other, RLC and RRC undo each other on `A` in either order, CMA undoes itself (R113 to R117
corner cases). -/
def Obligations.RotatesUndoEachOther : Prop :=
  ∀ s : State,
    (∃ t, exec .ral s = .next t ∧ exec .rar t = .next s) ∧
    (∃ t, exec .rar s = .next t ∧ exec .ral t = .next s) ∧
    (∃ t u, exec .rlc s = .next t ∧ exec .rrc t = .next u ∧ u = { s with carry := u.carry }) ∧
    (∃ t u, exec .rrc s = .next t ∧ exec .rlc t = .next u ∧ u = { s with carry := u.carry }) ∧
    (∃ t, exec .cma s = .next t ∧ exec .cma t = .next s)

/-- R118, R120, R121: STC sets `carry`; DI and EI clear and set `interrupt_enabled`; nothing else changes.
Bytes: D2, log entry 7. -/
def Obligations.StcDiEi : Prop :=
  (DecodesTo [0x37] .stc ∧ DecodesTo [0xF3] .di ∧ DecodesTo [0xFB] .ei) ∧
  ∀ s : State,
    exec .stc s = .next { s with carry := true } ∧
    exec .di s = .next { s with interruptEnabled := false } ∧
    exec .ei s = .next { s with interruptEnabled := true }

/-- R119 (decision D8): CMC clears `carry`, or complements it where the parameter says so.  Bytes: D2, log entry 7. -/
def Obligations.CmcClearsOrComplements : Prop :=
  DecodesTo [0x3F] .cmc ∧
  ∀ s : State,
    (s.params.cmcComplements = false → exec .cmc s = .next { s with carry := false }) ∧
    (s.params.cmcComplements = true → exec .cmc s = .next { s with carry := !s.carry })

/-! ### Ports (spec/44_io.md) -/

/-- R122, R123, R124 (decision D18 on `A`, D21 on the oracle): OUT emits one event with `A` and changes nothing else; IN
loads `A` with the byte the environment answers, whatever it is, writes no flag, and the call is recorded.  The byte is
the environment's next ready answer where there is one; otherwise it is the model's free value (log entry 4), a function
of the port and the earlier calls.  Bytes: D2, log entry 7. -/
def Obligations.PortInstructions : Prop :=
  (∀ port : Byte, DecodesTo [0xD3, port] (.out port) ∧ DecodesTo [0xDB, port] (.inp port)) ∧
  ∀ (s : State) (port : Byte),
    exec (.out port) s = .next { s with portEvents := s.portEvents ++ [.output port s.a] } ∧
    ∃ v : Byte,
      exec (.inp port) s =
        .next { s with a := v, portInputs := s.portInputs.tail, portEvents := s.portEvents ++ [.input port v] } ∧
      (∀ w rest, s.portInputs = w :: rest → v = w) ∧
      (s.portInputs = [] → v = Config.portInput s.portEvents port)

/-! ### Data movement (spec/45_data_movement.md; every instruction of it is the spec's decisions D1 to D3) -/

/-- NOP, MOV, MVI and LXI (R125 to R128).  Bytes: D2, log entry 7. -/
def Obligations.MoveInstructions : Prop :=
  (DecodesTo [0x00] .nop ∧
    (∀ dst src : Operand8, ¬(dst = .m ∧ src = .m) →
      DecodesTo [BitVec.ofNat 8 (0x40 + 8 * dst.code + src.code)] (.mov dst src)) ∧
    (∀ (r : Operand8) (d8 : Byte), DecodesTo [BitVec.ofNat 8 (0x06 + 8 * r.code), d8] (.mvi r d8)) ∧
    (∀ (rp : RegPair) (lo hi : Byte),
      DecodesTo [BitVec.ofNat 8 (0x01 + 16 * rp.code), lo, hi] (.lxi rp (mkWord hi lo)))) ∧
  ∀ (s : State) (dst src : Operand8) (d8 : Byte) (d16 : Word),
    exec .nop s = .next s ∧
    exec (.mov dst src) s = .next (s.writeOperand dst (s.readOperand src)) ∧
    exec (.mvi dst d8) s = .next (s.writeOperand dst d8) ∧
    exec (.lxi .bc d16) s = .next { s with b := hiByte d16, c := loByte d16 } ∧
    exec (.lxi .de d16) s = .next { s with d := hiByte d16, e := loByte d16 } ∧
    exec (.lxi .hl d16) s = .next { s with h := hiByte d16, l := loByte d16 } ∧
    exec (.lxi .sp d16) s = .next { s with sp := d16 }

/-- LDA, STA, LHLD, SHLD, LDAX and STAX (R129 to R134), also at 0xFFFF, where the high byte of LHLD and SHLD is at
0x0000.  Bytes: D2, log entry 7. -/
def Obligations.LoadAndStoreInstructions : Prop :=
  ((∀ lo hi : Byte,
      DecodesTo [0x3A, lo, hi] (.lda (mkWord hi lo)) ∧ DecodesTo [0x32, lo, hi] (.sta (mkWord hi lo)) ∧
      DecodesTo [0x2A, lo, hi] (.lhld (mkWord hi lo)) ∧ DecodesTo [0x22, lo, hi] (.shld (mkWord hi lo))) ∧
    DecodesTo [0x0A] (.ldax .bc) ∧ DecodesTo [0x1A] (.ldax .de) ∧ DecodesTo [0x02] (.stax .bc) ∧
    DecodesTo [0x12] (.stax .de)) ∧
  ∀ (s : State) (a : Word),
    exec (.lda a) s = .next { s with a := s.mem.readByte a } ∧
    exec (.sta a) s = .next { s with mem := s.mem.writeByte a s.a } ∧
    exec (.lhld a) s = .next { s with l := s.mem.readByte a, h := s.mem.readByte (a + 1) } ∧
    exec (.shld a) s = .next { s with mem := (s.mem.writeByte a s.l).writeByte (a + 1) s.h } ∧
    exec (.ldax .bc) s = .next { s with a := s.mem.readByte s.bc } ∧
    exec (.ldax .de) s = .next { s with a := s.mem.readByte s.de } ∧
    exec (.stax .bc) s = .next { s with mem := s.mem.writeByte s.bc s.a } ∧
    exec (.stax .de) s = .next { s with mem := s.mem.writeByte s.de s.a }

/-- INX, DCX and DAD (R135 to R137): the pair plus or minus 1 `mod 65536` with no flag; the sum to `HL` with its carry in
`carry` only.  Bytes: D2, log entry 7. -/
def Obligations.PairArithmetic : Prop :=
  (∀ rp : RegPair,
    DecodesTo [BitVec.ofNat 8 (0x03 + 16 * rp.code)] (.inx rp) ∧
    DecodesTo [BitVec.ofNat 8 (0x0B + 16 * rp.code)] (.dcx rp) ∧
    DecodesTo [BitVec.ofNat 8 (0x09 + 16 * rp.code)] (.dad rp)) ∧
  ∀ (s : State) (rp : RegPair), ∃ t u w,
    (exec (.inx rp) s = .next t ∧ (t.readPair rp).toNat = ((s.readPair rp).toNat + 1) % 65536 ∧
      t = s.writePair rp (t.readPair rp)) ∧
    (exec (.dcx rp) s = .next u ∧ (u.readPair rp).toNat = ((s.readPair rp).toNat + 65535) % 65536 ∧
      u = s.writePair rp (u.readPair rp)) ∧
    (exec (.dad rp) s = .next w ∧ w.hl.toNat = (s.hl.toNat + (s.readPair rp).toNat) % 65536 ∧
      w = { s with h := w.h, l := w.l, carry := decide (65535 < s.hl.toNat + (s.readPair rp).toNat) })
end

