-- ==== Sys2Proof/Laws/Memory.lean ====
section
/-! SUPPORT. The laws of memory: what a byte reads as after a store, and that every operation keeps the canonical form. -/

namespace Sys2Proof.Machine

/-! ### Reading after erasing, inserting and writing -/

theorem Memory.read_erase (m : Memory) (n k : Nat) :
    (m.erase n).read k = if k = n then Memory.unlisted else m.read k := by
  induction m with
  | nil => simp [Memory.erase, Memory.read]
  | cons cell m ih =>
    obtain ⟨j, w⟩ := cell
    simp only [Memory.erase, List.filter_cons] at ih ⊢
    by_cases hj : j = n
    · subst hj
      simp only [bne_self_eq_false, Bool.false_eq_true, if_false, ih, Memory.read]
      by_cases hk : k = j
      · simp [hk]
      · simp [hk, Ne.symm hk]
    · simp only [bne_iff_ne, ne_eq, hj, not_false_eq_true, if_true, Memory.read, ih]
      by_cases hk : j = k
      · subst hk; simp [hj]
      · simp [hk]

theorem Memory.read_insert (m : Memory) (n k : Nat) (v : Byte) (h : m.read n = Memory.unlisted)
    (hm : ∀ cell ∈ m, cell.1 ≠ n) : (m.insert n v).read k = if k = n then v else m.read k := by
  induction m with
  | nil => simp only [Memory.insert, Memory.read, eq_comm]
  | cons cell m ih =>
    obtain ⟨j, w⟩ := cell
    have hj : j ≠ n := hm (j, w) (by simp)
    simp only [Memory.insert]
    split
    · have ih := ih (by simpa [Memory.read, hj] using h) (fun c hc => hm c (by simp [hc]))
      simp only [Memory.read, ih]
      by_cases hk : j = k
      · subst hk; simp [hj]
      · simp [hk]
    · simp only [Memory.read, eq_comm]

theorem Memory.mem_erase_ne (m : Memory) (n : Nat) : ∀ cell ∈ m.erase n, cell.1 ≠ n := by
  intro cell hc
  simpa [Memory.erase] using (List.mem_filter.mp hc).2

/-- A byte reads as the value stored at its address, and as before everywhere else. -/
theorem Memory.read_write (m : Memory) (n k : Nat) (v : Byte) :
    (m.write n v).read k = if k = n then v else m.read k := by
  simp only [Memory.write]
  split
  · next h => rw [Memory.read_erase, h]
  · rw [Memory.read_insert _ _ _ _ (by simp [Memory.read_erase]) (Memory.mem_erase_ne m n), Memory.read_erase]
    split <;> simp_all

/-! ### The canonical form -/

theorem Memory.wfFrom_mono {lo lo' : Nat} {m : Memory} (h : lo' ≤ lo) (hm : Memory.wfFrom lo m = true) :
    Memory.wfFrom lo' m = true := by
  cases m with
  | nil => rfl
  | cons cell m =>
    simp only [Memory.wfFrom, Bool.and_eq_true, decide_eq_true_eq] at hm ⊢
    exact ⟨⟨⟨Nat.le_trans h hm.1.1.1, hm.1.1.2⟩, hm.1.2⟩, hm.2⟩

theorem Memory.wfFrom_erase (m : Memory) (n lo : Nat) (hm : Memory.wfFrom lo m = true) :
    Memory.wfFrom lo (m.erase n) = true := by
  induction m generalizing lo with
  | nil => rfl
  | cons cell m ih =>
    obtain ⟨j, w⟩ := cell
    simp only [Memory.wfFrom, Bool.and_eq_true, decide_eq_true_eq] at hm
    simp only [Memory.erase, List.filter_cons]
    split
    · simp only [Memory.wfFrom, Bool.and_eq_true, decide_eq_true_eq]
      exact ⟨hm.1, ih _ hm.2⟩
    · exact Memory.wfFrom_mono (Nat.le_succ_of_le hm.1.1.1) (ih _ hm.2)

theorem Memory.wfFrom_insert (m : Memory) (n lo : Nat) (v : Byte) (hv : v ≠ Memory.unlisted) (hn : n < 65536)
    (hlo : lo ≤ n) (hne : ∀ cell ∈ m, cell.1 ≠ n) (hm : Memory.wfFrom lo m = true) :
    Memory.wfFrom lo (m.insert n v) = true := by
  induction m generalizing lo with
  | nil => simp [Memory.insert, Memory.wfFrom, hlo, hn, hv]
  | cons cell m ih =>
    obtain ⟨j, w⟩ := cell
    have hj : j ≠ n := hne (j, w) (by simp)
    simp only [Memory.wfFrom, Bool.and_eq_true, decide_eq_true_eq] at hm
    simp only [Memory.insert]
    split
    · next hlt =>
      simp only [Memory.wfFrom, Bool.and_eq_true, decide_eq_true_eq]
      exact ⟨hm.1, ih _ (by omega) (fun c hc => hne c (by simp [hc])) hm.2⟩
    · next hlt =>
      simp only [Memory.wfFrom, Bool.and_eq_true, decide_eq_true_eq, bne_iff_ne, ne_eq] at hm ⊢
      exact ⟨⟨⟨hlo, hn⟩, hv⟩, ⟨⟨by omega, hm.1.1.2⟩, hm.1.2⟩, hm.2⟩

/-- Storing a byte keeps the canonical form. -/
theorem Memory.wf_write (m : Memory) (n : Nat) (v : Byte) (hn : n < 65536) (hm : m.wf = true) :
    (m.write n v).wf = true := by
  simp only [Memory.write, Memory.wf] at *
  split
  · exact Memory.wfFrom_erase _ _ _ hm
  · next h => exact Memory.wfFrom_insert _ _ _ _ h hn (Nat.zero_le _) (Memory.mem_erase_ne m n) (Memory.wfFrom_erase _ _ _ hm)

theorem Memory.read_of_wfFrom_lt {lo n : Nat} {m : Memory} (hm : Memory.wfFrom lo m = true) (h : n < lo) :
    m.read n = Memory.unlisted := by
  induction m generalizing lo with
  | nil => rfl
  | cons cell m ih =>
    obtain ⟨j, w⟩ := cell
    simp only [Memory.wfFrom, Bool.and_eq_true, decide_eq_true_eq] at hm
    have hj : j ≠ n := by omega
    simp only [Memory.read, hj, if_false]
    exact ih hm.2 (by omega)

/-- Memories in canonical form that read alike at every address of the space are equal data. -/
theorem Memory.ext_of_wfFrom {lo : Nat} {m m' : Memory} (hm : Memory.wfFrom lo m = true)
    (hm' : Memory.wfFrom lo m' = true) (h : ∀ n < 65536, m.read n = m'.read n) : m = m' := by
  induction m generalizing lo m' with
  | nil =>
    cases m' with
    | nil => rfl
    | cons cell m' =>
      obtain ⟨j, w⟩ := cell
      simp only [Memory.wfFrom, Bool.and_eq_true, decide_eq_true_eq, bne_iff_ne, ne_eq] at hm'
      exact absurd (by simpa [Memory.read] using (h j hm'.1.1.2).symm) hm'.1.2
  | cons cell m ih =>
    obtain ⟨j, w⟩ := cell
    simp only [Memory.wfFrom, Bool.and_eq_true, decide_eq_true_eq, bne_iff_ne, ne_eq] at hm
    cases m' with
    | nil => exact absurd (by simpa [Memory.read] using h j hm.1.1.2) hm.1.2
    | cons cell' m' =>
      obtain ⟨j', w'⟩ := cell'
      simp only [Memory.wfFrom, Bool.and_eq_true, decide_eq_true_eq, bne_iff_ne, ne_eq] at hm'
      have hjj : j = j' := by
        rcases Nat.lt_trichotomy j j' with hlt | heq | hgt
        · have h1 := h j hm.1.1.2
          simp only [Memory.read, if_true, Nat.ne_of_gt hlt, if_false] at h1
          rw [Memory.read_of_wfFrom_lt hm'.2 (by omega)] at h1
          exact absurd h1 hm.1.2
        · exact heq
        · have h1 := h j' hm'.1.1.2
          simp only [Memory.read, if_true, Nat.ne_of_gt hgt, if_false] at h1
          rw [Memory.read_of_wfFrom_lt hm.2 (by omega)] at h1
          exact absurd h1.symm hm'.1.2
      subst hjj
      have hw : w = w' := by simpa [Memory.read] using h j hm.1.1.2
      subst hw
      have hrest : m = m' := by
        refine ih hm.2 hm'.2 fun n hn => ?_
        by_cases hnj : j = n
        · subst hnj
          rw [Memory.read_of_wfFrom_lt hm.2 (Nat.lt_succ_self _), Memory.read_of_wfFrom_lt hm'.2 (Nat.lt_succ_self _)]
        · simpa [Memory.read, hnj] using h n hn
      rw [hrest]

/-! ### Bytes and words at 16-bit addresses -/

theorem Memory.readByte_writeByte (m : Memory) (x y : Word) (v : Byte) :
    (m.writeByte x v).readByte y = if y = x then v else m.readByte y := by
  simp only [Memory.readByte, Memory.writeByte, Memory.read_write, BitVec.toNat_inj]

@[simp] theorem Memory.readByte_writeByte_same (m : Memory) (x : Word) (v : Byte) :
    (m.writeByte x v).readByte x = v := by simp [Memory.readByte_writeByte]

theorem Memory.readByte_writeByte_ne (m : Memory) {x y : Word} (v : Byte) (h : y ≠ x) :
    (m.writeByte x v).readByte y = m.readByte y := by simp [Memory.readByte_writeByte, h]

theorem Memory.succ_ne (x : Word) : x + 1 ≠ x := by bv_omega

theorem Memory.ne_succ (x : Word) : x ≠ x + 1 := by bv_omega

theorem Memory.readByte_writeWord (m : Memory) (x y : Word) (v : Word) :
    (m.writeWord x v).readByte y = if y = x + 1 then hiByte v else if y = x then loByte v else m.readByte y := by
  simp only [Memory.writeWord, Memory.readByte_writeByte]

theorem mkWord_toNat (hi lo : Byte) : (mkWord hi lo).toNat = hi.toNat * 256 + lo.toNat := by
  simp only [mkWord, BitVec.toNat_append, Nat.shiftLeft_eq]
  rw [Nat.mul_comm, ← Nat.two_pow_add_eq_or_of_lt lo.isLt]

theorem loByte_toNat (v : Word) : (loByte v).toNat = v.toNat % 256 := by
  simp [loByte, BitVec.extractLsb'_toNat]

theorem hiByte_toNat (v : Word) : (hiByte v).toNat = v.toNat / 256 := by
  have := v.isLt
  simp only [hiByte, BitVec.extractLsb'_toNat, Nat.shiftRight_eq_div_pow]
  omega

@[simp] theorem mkWord_hi_lo (v : Word) : mkWord (hiByte v) (loByte v) = v := by
  apply BitVec.eq_of_toNat_eq
  rw [mkWord_toNat, hiByte_toNat, loByte_toNat]
  omega

@[simp] theorem loByte_mkWord (hi lo : Byte) : loByte (mkWord hi lo) = lo := by
  apply BitVec.eq_of_toNat_eq
  have := lo.isLt
  rw [loByte_toNat, mkWord_toNat]
  omega

@[simp] theorem hiByte_mkWord (hi lo : Byte) : hiByte (mkWord hi lo) = hi := by
  apply BitVec.eq_of_toNat_eq
  have := lo.isLt
  rw [hiByte_toNat, mkWord_toNat]
  omega

/-- A word reads back as it was stored, also at 0xFFFF. -/
@[simp] theorem Memory.readWord_writeWord_same (m : Memory) (x v : Word) : (m.writeWord x v).readWord x = v := by
  simp [Memory.readWord, Memory.readByte_writeWord]

theorem Memory.wf_writeByte {m : Memory} (x : Word) (v : Byte) (hm : m.wf = true) : (m.writeByte x v).wf = true :=
  Memory.wf_write m _ v x.isLt hm

theorem Memory.wf_writeWord {m : Memory} (x : Word) (v : Word) (hm : m.wf = true) : (m.writeWord x v).wf = true :=
  Memory.wf_writeByte _ _ (Memory.wf_writeByte _ _ hm)

/-! ### Loading an image -/

theorem Memory.read_load (m : Memory) (image : List Byte) (at' k : Nat) :
    (Memory.load m at' image).read k =
      if at' ≤ k ∧ k < at' + image.length then image.getD (k - at') Memory.unlisted else m.read k := by
  induction image generalizing at' with
  | nil => simp only [Memory.load, List.length_nil]; split; omega; rfl
  | cons v image ih =>
    simp only [Memory.load, Memory.read_write, ih, List.length_cons]
    by_cases hk : k = at'
    · subst hk; simp
    · simp only [hk, if_false]
      by_cases h1 : at' + 1 ≤ k ∧ k < at' + 1 + image.length
      · have h2 : at' ≤ k ∧ k < at' + (image.length + 1) := by omega
        have h3 : k - at' = (k - (at' + 1)) + 1 := by omega
        simp [h1, h2, h3]
      · have h2 : ¬(at' ≤ k ∧ k < at' + (image.length + 1)) := by omega
        rw [if_neg h1, if_neg h2]

theorem Memory.wf_load (m : Memory) (image : List Byte) (at' : Nat) (h : at' + image.length ≤ 65536)
    (hm : m.wf = true) : (Memory.load m at' image).wf = true := by
  induction image generalizing at' with
  | nil => exact hm
  | cons v image ih =>
    simp only [List.length_cons] at h
    exact Memory.wf_write _ _ _ (by omega) (ih (at' + 1) (by omega))

end Sys2Proof.Machine
end

