-- ==== Sys2Proof/Laws/Alu.lean ====
section
/-! SUPPORT. The ALU operations in plain numbers: one lemma for each core of spec/43_arith_logic.md, which callers cite
instead of unfolding it. -/

namespace Sys2Proof.Machine

theorem flagNat_le (b : Bool) : flagNat b ≤ 1 := by cases b <;> decide

/-- The half-carry bit of three numbers is the exclusive or of their bits 4. -/
theorem halfCarryBit_eq (x y r : Nat) :
    halfCarryBit x y r = ((decide (x / 16 % 2 = 1) ^^ decide (y / 16 % 2 = 1)) ^^ decide (r / 16 % 2 = 1)) := by
  have h (n : Nat) : ((n &&& 0x10) != 0) = n.testBit 4 := by
    rw [show (0x10 : Nat) = 2 ^ 4 from rfl, Nat.and_two_pow]
    cases n.testBit 4 <;> rfl
  rw [halfCarryBit, h, Nat.testBit_xor, Nat.testBit_xor]
  simp only [Nat.testBit_eq_decide_div_mod_eq]

/-- An exclusive or of three decided facts is decided by any fact equivalent to their odd combinations. -/
theorem xor_decide_eq {p q r t : Prop} [Decidable p] [Decidable q] [Decidable r] [Decidable t]
    (h : t ↔ ((p ∧ q ∧ r) ∨ (p ∧ ¬q ∧ ¬r) ∨ (¬p ∧ q ∧ ¬r) ∨ (¬p ∧ ¬q ∧ r))) :
    ((decide p ^^ decide q) ^^ decide r) = decide t := by
  by_cases hp : p <;> by_cases hq : q <;> by_cases hr : r <;> simp [h, hp, hq, hr]

/-- The carry out of bit 3 of a sum (R91). -/
theorem halfCarryBit_sum (x y c : Nat) (hc : c ≤ 1) :
    halfCarryBit x y (x + y + c) = decide (15 < x % 16 + y % 16 + c) := by
  rw [halfCarryBit_eq]
  exact xor_decide_eq (by omega)

/-- The borrow into bit 4 of a difference taken `mod 256` (R92). -/
theorem halfCarryBit_difference (x y c : Nat) (hx : x < 256) (hy : y < 256) (hc : c ≤ 1) :
    halfCarryBit x y ((x + 512 - y - c) % 256) = decide (x % 16 < y % 16 + c) := by
  rw [halfCarryBit_eq]
  exact xor_decide_eq (by omega)

/-- `zero` of a byte in numbers. -/
theorem byte_beq_zero (r : Byte) : (r == 0) = decide (r.toNat = 0) := by
  rw [Bool.eq_iff_iff, beq_iff_eq, decide_eq_true_eq, ← BitVec.toNat_inj]
  rfl

/-- `sign` of a byte in numbers. -/
theorem byte_bit7 (r : Byte) : r.getLsbD 7 = decide (128 ≤ r.toNat) := by
  have := r.isLt
  rw [BitVec.getLsbD, Nat.testBit_eq_decide_div_mod_eq, decide_eq_decide]
  omega

/-- `add8` in plain numbers. -/
theorem State.add8_eq (s : State) (v : Byte) (cin : Bool) : s.add8 v cin = s.sumResult v (flagNat cin) := by
  simp only [State.add8, State.sumResult, byte_beq_zero, byte_bit7, BitVec.toNat_ofNat,
    halfCarryBit_sum _ _ _ (flagNat_le cin), gt_iff_lt]

theorem diff8_toNat (a v : Byte) (cin : Bool) : (diff8 a v cin).toNat = differenceNat a v (flagNat cin) := by
  have ha := a.isLt
  have hv := v.isLt
  have hc := flagNat_le cin
  simp only [diff8, differenceNat, BitVec.toNat_ofInt]
  omega

theorem borrow8_eq (p : Bool) (a v : Byte) (cin : Nat) (c : Bool) (h : cin = flagNat c) :
    borrow8 p a v c = decide (a.toNat < v.toNat + cin ∧ (p = false → v ≠ 0)) := by
  subst h
  cases p
  · rw [Bool.eq_iff_iff]
    simp [borrow8, and_comm]
  · simp [borrow8]

/-- `sub8` that stores, in plain numbers. -/
theorem State.sub8_store_eq (s : State) (v : Byte) (cin : Bool) :
    s.sub8 v cin true = s.differenceResult v (flagNat cin) := by
  have hd := diff8_toNat s.a v cin
  have hdl := (diff8 s.a v cin).isLt
  have hd' : diff8 s.a v cin = BitVec.ofNat 8 (differenceNat s.a v (flagNat cin)) := by
    rw [← hd, BitVec.ofNat_toNat, BitVec.setWidth_eq]
  simp only [State.sub8, State.differenceResult, State.differenceFlags, if_true, byte_beq_zero, byte_bit7, hd,
    borrow8_eq _ _ _ _ _ rfl, ← hd']
  simp only [differenceNat, halfCarryBit_difference _ _ _ s.a.isLt v.isLt (flagNat_le cin)]

/-- `sub8` that only writes the flags, in plain numbers. -/
theorem State.sub8_flags_eq (s : State) (v : Byte) (cin : Bool) :
    s.sub8 v cin false = s.differenceFlags v (flagNat cin) := by
  have hd := diff8_toNat s.a v cin
  simp only [State.sub8, State.differenceFlags, Bool.false_eq_true, if_false, byte_beq_zero, byte_bit7, hd,
    borrow8_eq _ _ _ _ _ rfl]
  simp only [differenceNat, halfCarryBit_difference _ _ _ s.a.isLt v.isLt (flagNat_le cin)]

/-- `logic8` in plain numbers. -/
theorem State.logic8_eq (s : State) (r : Byte) : s.logic8 r = s.logicResult r := by
  simp only [State.logic8, State.logicResult, byte_beq_zero, byte_bit7]

end Sys2Proof.Machine
end

