-- ==== Sys2Proof/Laws/Decode.lean ====
section
/-! SUPPORT. What the decoder does, said once: the length it finds, the bytes it looks at, the bytes it refuses, and that
its answer encodes to the bytes it read. -/

namespace Sys2Proof

open Sys2Proof.Machine

/-- A byte is one of the 256 literals. -/
theorem byte_cases (op : Byte) : ∃ n, n < 256 ∧ op = BitVec.ofNat 8 n :=
  ⟨op.toNat, op.isLt, by simp⟩

/-- The length comes from the opcode byte alone (spec/30_encoding.md R68). -/
theorem decodeOpcode_length (op lo hi : Byte) : (decodeOpcode op lo hi).length = opcodeLength op := by
  simp only [opcodeLength, decodeOpcode, decodeGroup0, decodeGroup1, decodeGroup2, decodeGroup3]
  repeat' (first | rfl | split)

theorem opcodeLength_cases (op : Byte) : opcodeLength op = 1 ∨ opcodeLength op = 2 ∨ opcodeLength op = 3 := by
  revert op; decide

/-- An opcode of length 1 looks at no immediate byte. -/
theorem decodeOpcode_of_length_one {op : Byte} (lo hi : Byte) (h : opcodeLength op = 1) :
    decodeOpcode op lo hi = decodeOpcode op 0 0 := by
  revert h
  simp only [opcodeLength, decodeOpcode, decodeGroup0, decodeGroup1, decodeGroup2, decodeGroup3]
  repeat' (first | (intro; rfl) | split | (intro h; simp [Instr.length] at h))

/-- An opcode of length 2 looks at the first immediate byte only. -/
theorem decodeOpcode_of_length_two {op : Byte} (lo hi : Byte) (h : opcodeLength op = 2) :
    decodeOpcode op lo hi = decodeOpcode op lo 0 := by
  revert h
  simp only [opcodeLength, decodeOpcode, decodeGroup0, decodeGroup1, decodeGroup2, decodeGroup3]
  repeat' (first | (intro; rfl) | split | (intro h; simp [Instr.length] at h))

/-- The instruction read encodes to the opcode byte and the immediate bytes its length takes. -/
theorem encode_decodeOpcode (op lo hi : Byte) :
    encode (decodeOpcode op lo hi) = [op, lo, hi].take (opcodeLength op) := by
  obtain ⟨n, hn, rfl⟩ := byte_cases op
  interval_cases n <;>
    first
      | rfl
      | (show [_, loByte _, hiByte _] = _
         rw [loByte_mkWord, hiByte_mkWord]
         rfl)

/-- The instruction is `invalid`. -/
def isInvalid : Instr → Bool
  | .invalid _ => true
  | _ => false

/-- The decoder answers `invalid` exactly for the bytes of R66's table. -/
theorem decodeOpcode_isInvalid (op lo hi : Byte) : isInvalid (decodeOpcode op lo hi) = undefinedOpcodes.contains op := by
  have h : ∀ op : Byte, isInvalid (decodeOpcode op 0 0) = undefinedOpcodes.contains op := by decide
  rw [← h op]
  simp only [decodeOpcode, decodeGroup0, decodeGroup1, decodeGroup2, decodeGroup3]
  repeat' (first | rfl | split)

/-- The decoder answers well-formed instructions. -/
theorem decodeOpcode_wellFormed (op lo hi : Byte) : WellFormed (decodeOpcode op lo hi) := by
  obtain ⟨n, hn, rfl⟩ := byte_cases op
  interval_cases n <;> rfl

/-- Three bytes that decode give what the total dispatch gives. -/
theorem decode_three {op lo hi : Byte} {i : Instr} {rest : List Byte} (h : decode [op, lo, hi] = .ok (i, rest)) :
    i = decodeOpcode op lo hi := by
  rcases opcodeLength_cases op with hl | hl | hl <;> simp only [decode, hl] at h <;> cases h
  · exact (decodeOpcode_of_length_one _ _ hl).symm
  · exact (decodeOpcode_of_length_two _ _ hl).symm
  · rfl

end Sys2Proof
end

