-- ==== Sys2Proof/Laws/PerInstr.lean ====
section
/-! SUPPORT. Per instruction: decoding its encoding gives it back, with whatever bytes follow. -/

namespace Sys2Proof.Laws.RoundTrip

open Sys2Proof.Machine

/-- The bytes of the instruction, followed by any bytes, decode to it and leave those bytes. -/
def Statement (i : Instr) : Prop := WellFormed i → ∀ rest : List Byte, decode (encode i ++ rest) = .ok (i, rest)

theorem nop : Statement .nop := fun _ _ => rfl

theorem lxi (rp : RegPair) (d16 : Word) : Statement (.lxi rp d16) := by
  intro _ rest
  cases rp <;> exact congrArg (fun w => Except.ok (Instr.lxi _ w, rest)) (mkWord_hi_lo d16)

theorem stax (rp : IndirectPair) : Statement (.stax rp) := by
  intro _ rest
  cases rp <;> rfl

theorem inx (rp : RegPair) : Statement (.inx rp) := by
  intro _ rest
  cases rp <;> rfl

theorem inr (r : Operand8) : Statement (.inr r) := by
  intro _ rest
  cases r <;> rfl

theorem dcr (r : Operand8) : Statement (.dcr r) := by
  intro _ rest
  cases r <;> rfl

theorem mvi (r : Operand8) (d8 : Byte) : Statement (.mvi r d8) := by
  intro _ rest
  cases r <;> rfl

theorem rlc : Statement .rlc := fun _ _ => rfl

theorem invalid (op : Byte) : Statement (.invalid op) := by
  intro h rest
  have h : op ∈ undefinedOpcodes := by simpa [WellFormed, wellFormed] using h
  fin_cases h <;> rfl

theorem dad (rp : RegPair) : Statement (.dad rp) := by
  intro _ rest
  cases rp <;> rfl

theorem ldax (rp : IndirectPair) : Statement (.ldax rp) := by
  intro _ rest
  cases rp <;> rfl

theorem dcx (rp : RegPair) : Statement (.dcx rp) := by
  intro _ rest
  cases rp <;> rfl

theorem rrc : Statement .rrc := fun _ _ => rfl

theorem ral : Statement .ral := fun _ _ => rfl

theorem rar : Statement .rar := fun _ _ => rfl

theorem shld (a16 : Word) : Statement (.shld a16) := by
  intro _ rest
  exact congrArg (fun w => Except.ok (Instr.shld w, rest)) (mkWord_hi_lo a16)

theorem daa : Statement .daa := fun _ _ => rfl

theorem lhld (a16 : Word) : Statement (.lhld a16) := by
  intro _ rest
  exact congrArg (fun w => Except.ok (Instr.lhld w, rest)) (mkWord_hi_lo a16)

theorem cma : Statement .cma := fun _ _ => rfl

theorem sta (a16 : Word) : Statement (.sta a16) := by
  intro _ rest
  exact congrArg (fun w => Except.ok (Instr.sta w, rest)) (mkWord_hi_lo a16)

theorem stc : Statement .stc := fun _ _ => rfl

theorem lda (a16 : Word) : Statement (.lda a16) := by
  intro _ rest
  exact congrArg (fun w => Except.ok (Instr.lda w, rest)) (mkWord_hi_lo a16)

theorem cmc : Statement .cmc := fun _ _ => rfl

theorem mov (dst : Operand8) (src : Operand8) : Statement (.mov dst src) := by
  intro h rest
  cases dst <;> cases src <;> first | rfl | exact absurd h (by decide)

theorem add (r : Operand8) : Statement (.add r) := by
  intro _ rest
  cases r <;> rfl

theorem adc (r : Operand8) : Statement (.adc r) := by
  intro _ rest
  cases r <;> rfl

theorem sub (r : Operand8) : Statement (.sub r) := by
  intro _ rest
  cases r <;> rfl

theorem sbb (r : Operand8) : Statement (.sbb r) := by
  intro _ rest
  cases r <;> rfl

theorem ana (r : Operand8) : Statement (.ana r) := by
  intro _ rest
  cases r <;> rfl

theorem xra (r : Operand8) : Statement (.xra r) := by
  intro _ rest
  cases r <;> rfl

theorem ora (r : Operand8) : Statement (.ora r) := by
  intro _ rest
  cases r <;> rfl

theorem cmp (r : Operand8) : Statement (.cmp r) := by
  intro _ rest
  cases r <;> rfl

theorem rnz : Statement .rnz := fun _ _ => rfl

theorem pop (rp : StackPair) : Statement (.pop rp) := by
  intro _ rest
  cases rp <;> rfl

theorem jnz (a16 : Word) : Statement (.jnz a16) := by
  intro _ rest
  exact congrArg (fun w => Except.ok (Instr.jnz w, rest)) (mkWord_hi_lo a16)

theorem jmp (a16 : Word) : Statement (.jmp a16) := by
  intro _ rest
  exact congrArg (fun w => Except.ok (Instr.jmp w, rest)) (mkWord_hi_lo a16)

theorem cnz (a16 : Word) : Statement (.cnz a16) := by
  intro _ rest
  exact congrArg (fun w => Except.ok (Instr.cnz w, rest)) (mkWord_hi_lo a16)

theorem push (rp : StackPair) : Statement (.push rp) := by
  intro _ rest
  cases rp <;> rfl

theorem adi (d8 : Byte) : Statement (.adi d8) := fun _ _ => rfl

theorem rst (n : BitVec 3) : Statement (.rst n) := by
  intro _ rest
  have h : ∀ k : BitVec 3, k = 0 ∨ k = 1 ∨ k = 2 ∨ k = 3 ∨ k = 4 ∨ k = 5 ∨ k = 6 ∨ k = 7 := by decide
  rcases h n with h | h | h | h | h | h | h | h <;> subst h <;> rfl

theorem rz : Statement .rz := fun _ _ => rfl

theorem ret : Statement .ret := fun _ _ => rfl

theorem jz (a16 : Word) : Statement (.jz a16) := by
  intro _ rest
  exact congrArg (fun w => Except.ok (Instr.jz w, rest)) (mkWord_hi_lo a16)

theorem cz (a16 : Word) : Statement (.cz a16) := by
  intro _ rest
  exact congrArg (fun w => Except.ok (Instr.cz w, rest)) (mkWord_hi_lo a16)

theorem call (a16 : Word) : Statement (.call a16) := by
  intro _ rest
  exact congrArg (fun w => Except.ok (Instr.call w, rest)) (mkWord_hi_lo a16)

theorem aci (d8 : Byte) : Statement (.aci d8) := fun _ _ => rfl

theorem rnc : Statement .rnc := fun _ _ => rfl

theorem jnc (a16 : Word) : Statement (.jnc a16) := by
  intro _ rest
  exact congrArg (fun w => Except.ok (Instr.jnc w, rest)) (mkWord_hi_lo a16)

theorem out (port : Byte) : Statement (.out port) := fun _ _ => rfl

theorem cnc (a16 : Word) : Statement (.cnc a16) := by
  intro _ rest
  exact congrArg (fun w => Except.ok (Instr.cnc w, rest)) (mkWord_hi_lo a16)

theorem sui (d8 : Byte) : Statement (.sui d8) := fun _ _ => rfl

theorem rc : Statement .rc := fun _ _ => rfl

theorem jc (a16 : Word) : Statement (.jc a16) := by
  intro _ rest
  exact congrArg (fun w => Except.ok (Instr.jc w, rest)) (mkWord_hi_lo a16)

theorem inp (port : Byte) : Statement (.inp port) := fun _ _ => rfl

theorem cc (a16 : Word) : Statement (.cc a16) := by
  intro _ rest
  exact congrArg (fun w => Except.ok (Instr.cc w, rest)) (mkWord_hi_lo a16)

theorem sbi (d8 : Byte) : Statement (.sbi d8) := fun _ _ => rfl

theorem xthl : Statement .xthl := fun _ _ => rfl

theorem ani (d8 : Byte) : Statement (.ani d8) := fun _ _ => rfl

theorem pchl : Statement .pchl := fun _ _ => rfl

theorem xchg : Statement .xchg := fun _ _ => rfl

theorem xri (d8 : Byte) : Statement (.xri d8) := fun _ _ => rfl

theorem jp (a16 : Word) : Statement (.jp a16) := by
  intro _ rest
  exact congrArg (fun w => Except.ok (Instr.jp w, rest)) (mkWord_hi_lo a16)

theorem di : Statement .di := fun _ _ => rfl

theorem ori (d8 : Byte) : Statement (.ori d8) := fun _ _ => rfl

theorem sphl : Statement .sphl := fun _ _ => rfl

theorem jm (a16 : Word) : Statement (.jm a16) := by
  intro _ rest
  exact congrArg (fun w => Except.ok (Instr.jm w, rest)) (mkWord_hi_lo a16)

theorem ei : Statement .ei := fun _ _ => rfl

theorem cpi (d8 : Byte) : Statement (.cpi d8) := fun _ _ => rfl

end Sys2Proof.Laws.RoundTrip
end

