-- ==== Sys2Proof/Laws/State.lean ====
section
/-! SUPPORT. What each named update of the state does to each field: one lemma a field, true by `rfl`, so that no later
proof unfolds a record update. -/

namespace Sys2Proof.Machine

/-! ### `setBC` -/

@[simp] theorem State.params_setBC (s : State) (v : Word) : (s.setBC v).params = s.params := rfl
@[simp] theorem State.a_setBC (s : State) (v : Word) : (s.setBC v).a = s.a := rfl
@[simp] theorem State.b_setBC (s : State) (v : Word) : (s.setBC v).b = hiByte v := rfl
@[simp] theorem State.c_setBC (s : State) (v : Word) : (s.setBC v).c = loByte v := rfl
@[simp] theorem State.d_setBC (s : State) (v : Word) : (s.setBC v).d = s.d := rfl
@[simp] theorem State.e_setBC (s : State) (v : Word) : (s.setBC v).e = s.e := rfl
@[simp] theorem State.h_setBC (s : State) (v : Word) : (s.setBC v).h = s.h := rfl
@[simp] theorem State.l_setBC (s : State) (v : Word) : (s.setBC v).l = s.l := rfl
@[simp] theorem State.pc_setBC (s : State) (v : Word) : (s.setBC v).pc = s.pc := rfl
@[simp] theorem State.sp_setBC (s : State) (v : Word) : (s.setBC v).sp = s.sp := rfl
@[simp] theorem State.zero_setBC (s : State) (v : Word) : (s.setBC v).zero = s.zero := rfl
@[simp] theorem State.sign_setBC (s : State) (v : Word) : (s.setBC v).sign = s.sign := rfl
@[simp] theorem State.halfCarry_setBC (s : State) (v : Word) : (s.setBC v).halfCarry = s.halfCarry := rfl
@[simp] theorem State.carry_setBC (s : State) (v : Word) : (s.setBC v).carry = s.carry := rfl
@[simp] theorem State.parity_setBC (s : State) (v : Word) : (s.setBC v).parity = s.parity := rfl
@[simp] theorem State.interruptEnabled_setBC (s : State) (v : Word) : (s.setBC v).interruptEnabled = s.interruptEnabled := rfl
@[simp] theorem State.crashed_setBC (s : State) (v : Word) : (s.setBC v).crashed = s.crashed := rfl
@[simp] theorem State.instructionCounter_setBC (s : State) (v : Word) : (s.setBC v).instructionCounter = s.instructionCounter := rfl
@[simp] theorem State.interruptAlternate_setBC (s : State) (v : Word) : (s.setBC v).interruptAlternate = s.interruptAlternate := rfl
@[simp] theorem State.mem_setBC (s : State) (v : Word) : (s.setBC v).mem = s.mem := rfl
@[simp] theorem State.portInputs_setBC (s : State) (v : Word) : (s.setBC v).portInputs = s.portInputs := rfl
@[simp] theorem State.portEvents_setBC (s : State) (v : Word) : (s.setBC v).portEvents = s.portEvents := rfl

/-! ### `setDE` -/

@[simp] theorem State.params_setDE (s : State) (v : Word) : (s.setDE v).params = s.params := rfl
@[simp] theorem State.a_setDE (s : State) (v : Word) : (s.setDE v).a = s.a := rfl
@[simp] theorem State.b_setDE (s : State) (v : Word) : (s.setDE v).b = s.b := rfl
@[simp] theorem State.c_setDE (s : State) (v : Word) : (s.setDE v).c = s.c := rfl
@[simp] theorem State.d_setDE (s : State) (v : Word) : (s.setDE v).d = hiByte v := rfl
@[simp] theorem State.e_setDE (s : State) (v : Word) : (s.setDE v).e = loByte v := rfl
@[simp] theorem State.h_setDE (s : State) (v : Word) : (s.setDE v).h = s.h := rfl
@[simp] theorem State.l_setDE (s : State) (v : Word) : (s.setDE v).l = s.l := rfl
@[simp] theorem State.pc_setDE (s : State) (v : Word) : (s.setDE v).pc = s.pc := rfl
@[simp] theorem State.sp_setDE (s : State) (v : Word) : (s.setDE v).sp = s.sp := rfl
@[simp] theorem State.zero_setDE (s : State) (v : Word) : (s.setDE v).zero = s.zero := rfl
@[simp] theorem State.sign_setDE (s : State) (v : Word) : (s.setDE v).sign = s.sign := rfl
@[simp] theorem State.halfCarry_setDE (s : State) (v : Word) : (s.setDE v).halfCarry = s.halfCarry := rfl
@[simp] theorem State.carry_setDE (s : State) (v : Word) : (s.setDE v).carry = s.carry := rfl
@[simp] theorem State.parity_setDE (s : State) (v : Word) : (s.setDE v).parity = s.parity := rfl
@[simp] theorem State.interruptEnabled_setDE (s : State) (v : Word) : (s.setDE v).interruptEnabled = s.interruptEnabled := rfl
@[simp] theorem State.crashed_setDE (s : State) (v : Word) : (s.setDE v).crashed = s.crashed := rfl
@[simp] theorem State.instructionCounter_setDE (s : State) (v : Word) : (s.setDE v).instructionCounter = s.instructionCounter := rfl
@[simp] theorem State.interruptAlternate_setDE (s : State) (v : Word) : (s.setDE v).interruptAlternate = s.interruptAlternate := rfl
@[simp] theorem State.mem_setDE (s : State) (v : Word) : (s.setDE v).mem = s.mem := rfl
@[simp] theorem State.portInputs_setDE (s : State) (v : Word) : (s.setDE v).portInputs = s.portInputs := rfl
@[simp] theorem State.portEvents_setDE (s : State) (v : Word) : (s.setDE v).portEvents = s.portEvents := rfl

/-! ### `setHL` -/

@[simp] theorem State.params_setHL (s : State) (v : Word) : (s.setHL v).params = s.params := rfl
@[simp] theorem State.a_setHL (s : State) (v : Word) : (s.setHL v).a = s.a := rfl
@[simp] theorem State.b_setHL (s : State) (v : Word) : (s.setHL v).b = s.b := rfl
@[simp] theorem State.c_setHL (s : State) (v : Word) : (s.setHL v).c = s.c := rfl
@[simp] theorem State.d_setHL (s : State) (v : Word) : (s.setHL v).d = s.d := rfl
@[simp] theorem State.e_setHL (s : State) (v : Word) : (s.setHL v).e = s.e := rfl
@[simp] theorem State.h_setHL (s : State) (v : Word) : (s.setHL v).h = hiByte v := rfl
@[simp] theorem State.l_setHL (s : State) (v : Word) : (s.setHL v).l = loByte v := rfl
@[simp] theorem State.pc_setHL (s : State) (v : Word) : (s.setHL v).pc = s.pc := rfl
@[simp] theorem State.sp_setHL (s : State) (v : Word) : (s.setHL v).sp = s.sp := rfl
@[simp] theorem State.zero_setHL (s : State) (v : Word) : (s.setHL v).zero = s.zero := rfl
@[simp] theorem State.sign_setHL (s : State) (v : Word) : (s.setHL v).sign = s.sign := rfl
@[simp] theorem State.halfCarry_setHL (s : State) (v : Word) : (s.setHL v).halfCarry = s.halfCarry := rfl
@[simp] theorem State.carry_setHL (s : State) (v : Word) : (s.setHL v).carry = s.carry := rfl
@[simp] theorem State.parity_setHL (s : State) (v : Word) : (s.setHL v).parity = s.parity := rfl
@[simp] theorem State.interruptEnabled_setHL (s : State) (v : Word) : (s.setHL v).interruptEnabled = s.interruptEnabled := rfl
@[simp] theorem State.crashed_setHL (s : State) (v : Word) : (s.setHL v).crashed = s.crashed := rfl
@[simp] theorem State.instructionCounter_setHL (s : State) (v : Word) : (s.setHL v).instructionCounter = s.instructionCounter := rfl
@[simp] theorem State.interruptAlternate_setHL (s : State) (v : Word) : (s.setHL v).interruptAlternate = s.interruptAlternate := rfl
@[simp] theorem State.mem_setHL (s : State) (v : Word) : (s.setHL v).mem = s.mem := rfl
@[simp] theorem State.portInputs_setHL (s : State) (v : Word) : (s.setHL v).portInputs = s.portInputs := rfl
@[simp] theorem State.portEvents_setHL (s : State) (v : Word) : (s.setHL v).portEvents = s.portEvents := rfl

/-! ### `writeByte` -/

@[simp] theorem State.params_writeByte (s : State) (x : Word) (v : Byte) : (s.writeByte x v).params = s.params := rfl
@[simp] theorem State.a_writeByte (s : State) (x : Word) (v : Byte) : (s.writeByte x v).a = s.a := rfl
@[simp] theorem State.b_writeByte (s : State) (x : Word) (v : Byte) : (s.writeByte x v).b = s.b := rfl
@[simp] theorem State.c_writeByte (s : State) (x : Word) (v : Byte) : (s.writeByte x v).c = s.c := rfl
@[simp] theorem State.d_writeByte (s : State) (x : Word) (v : Byte) : (s.writeByte x v).d = s.d := rfl
@[simp] theorem State.e_writeByte (s : State) (x : Word) (v : Byte) : (s.writeByte x v).e = s.e := rfl
@[simp] theorem State.h_writeByte (s : State) (x : Word) (v : Byte) : (s.writeByte x v).h = s.h := rfl
@[simp] theorem State.l_writeByte (s : State) (x : Word) (v : Byte) : (s.writeByte x v).l = s.l := rfl
@[simp] theorem State.pc_writeByte (s : State) (x : Word) (v : Byte) : (s.writeByte x v).pc = s.pc := rfl
@[simp] theorem State.sp_writeByte (s : State) (x : Word) (v : Byte) : (s.writeByte x v).sp = s.sp := rfl
@[simp] theorem State.zero_writeByte (s : State) (x : Word) (v : Byte) : (s.writeByte x v).zero = s.zero := rfl
@[simp] theorem State.sign_writeByte (s : State) (x : Word) (v : Byte) : (s.writeByte x v).sign = s.sign := rfl
@[simp] theorem State.halfCarry_writeByte (s : State) (x : Word) (v : Byte) : (s.writeByte x v).halfCarry = s.halfCarry := rfl
@[simp] theorem State.carry_writeByte (s : State) (x : Word) (v : Byte) : (s.writeByte x v).carry = s.carry := rfl
@[simp] theorem State.parity_writeByte (s : State) (x : Word) (v : Byte) : (s.writeByte x v).parity = s.parity := rfl
@[simp] theorem State.interruptEnabled_writeByte (s : State) (x : Word) (v : Byte) : (s.writeByte x v).interruptEnabled = s.interruptEnabled := rfl
@[simp] theorem State.crashed_writeByte (s : State) (x : Word) (v : Byte) : (s.writeByte x v).crashed = s.crashed := rfl
@[simp] theorem State.instructionCounter_writeByte (s : State) (x : Word) (v : Byte) : (s.writeByte x v).instructionCounter = s.instructionCounter := rfl
@[simp] theorem State.interruptAlternate_writeByte (s : State) (x : Word) (v : Byte) : (s.writeByte x v).interruptAlternate = s.interruptAlternate := rfl
@[simp] theorem State.mem_writeByte (s : State) (x : Word) (v : Byte) : (s.writeByte x v).mem = s.mem.writeByte x v := rfl
@[simp] theorem State.portInputs_writeByte (s : State) (x : Word) (v : Byte) : (s.writeByte x v).portInputs = s.portInputs := rfl
@[simp] theorem State.portEvents_writeByte (s : State) (x : Word) (v : Byte) : (s.writeByte x v).portEvents = s.portEvents := rfl

/-! ### `writeWord` -/

@[simp] theorem State.params_writeWord (s : State) (x v : Word) : (s.writeWord x v).params = s.params := rfl
@[simp] theorem State.a_writeWord (s : State) (x v : Word) : (s.writeWord x v).a = s.a := rfl
@[simp] theorem State.b_writeWord (s : State) (x v : Word) : (s.writeWord x v).b = s.b := rfl
@[simp] theorem State.c_writeWord (s : State) (x v : Word) : (s.writeWord x v).c = s.c := rfl
@[simp] theorem State.d_writeWord (s : State) (x v : Word) : (s.writeWord x v).d = s.d := rfl
@[simp] theorem State.e_writeWord (s : State) (x v : Word) : (s.writeWord x v).e = s.e := rfl
@[simp] theorem State.h_writeWord (s : State) (x v : Word) : (s.writeWord x v).h = s.h := rfl
@[simp] theorem State.l_writeWord (s : State) (x v : Word) : (s.writeWord x v).l = s.l := rfl
@[simp] theorem State.pc_writeWord (s : State) (x v : Word) : (s.writeWord x v).pc = s.pc := rfl
@[simp] theorem State.sp_writeWord (s : State) (x v : Word) : (s.writeWord x v).sp = s.sp := rfl
@[simp] theorem State.zero_writeWord (s : State) (x v : Word) : (s.writeWord x v).zero = s.zero := rfl
@[simp] theorem State.sign_writeWord (s : State) (x v : Word) : (s.writeWord x v).sign = s.sign := rfl
@[simp] theorem State.halfCarry_writeWord (s : State) (x v : Word) : (s.writeWord x v).halfCarry = s.halfCarry := rfl
@[simp] theorem State.carry_writeWord (s : State) (x v : Word) : (s.writeWord x v).carry = s.carry := rfl
@[simp] theorem State.parity_writeWord (s : State) (x v : Word) : (s.writeWord x v).parity = s.parity := rfl
@[simp] theorem State.interruptEnabled_writeWord (s : State) (x v : Word) : (s.writeWord x v).interruptEnabled = s.interruptEnabled := rfl
@[simp] theorem State.crashed_writeWord (s : State) (x v : Word) : (s.writeWord x v).crashed = s.crashed := rfl
@[simp] theorem State.instructionCounter_writeWord (s : State) (x v : Word) : (s.writeWord x v).instructionCounter = s.instructionCounter := rfl
@[simp] theorem State.interruptAlternate_writeWord (s : State) (x v : Word) : (s.writeWord x v).interruptAlternate = s.interruptAlternate := rfl
@[simp] theorem State.mem_writeWord (s : State) (x v : Word) : (s.writeWord x v).mem = s.mem.writeWord x v := rfl
@[simp] theorem State.portInputs_writeWord (s : State) (x v : Word) : (s.writeWord x v).portInputs = s.portInputs := rfl
@[simp] theorem State.portEvents_writeWord (s : State) (x v : Word) : (s.writeWord x v).portEvents = s.portEvents := rfl

/-! ### `push16` -/

@[simp] theorem State.params_push16 (s : State) (v : Word) : (s.push16 v).params = s.params := rfl
@[simp] theorem State.a_push16 (s : State) (v : Word) : (s.push16 v).a = s.a := rfl
@[simp] theorem State.b_push16 (s : State) (v : Word) : (s.push16 v).b = s.b := rfl
@[simp] theorem State.c_push16 (s : State) (v : Word) : (s.push16 v).c = s.c := rfl
@[simp] theorem State.d_push16 (s : State) (v : Word) : (s.push16 v).d = s.d := rfl
@[simp] theorem State.e_push16 (s : State) (v : Word) : (s.push16 v).e = s.e := rfl
@[simp] theorem State.h_push16 (s : State) (v : Word) : (s.push16 v).h = s.h := rfl
@[simp] theorem State.l_push16 (s : State) (v : Word) : (s.push16 v).l = s.l := rfl
@[simp] theorem State.pc_push16 (s : State) (v : Word) : (s.push16 v).pc = s.pc := rfl
@[simp] theorem State.sp_push16 (s : State) (v : Word) : (s.push16 v).sp = s.sp - 2 := rfl
@[simp] theorem State.zero_push16 (s : State) (v : Word) : (s.push16 v).zero = s.zero := rfl
@[simp] theorem State.sign_push16 (s : State) (v : Word) : (s.push16 v).sign = s.sign := rfl
@[simp] theorem State.halfCarry_push16 (s : State) (v : Word) : (s.push16 v).halfCarry = s.halfCarry := rfl
@[simp] theorem State.carry_push16 (s : State) (v : Word) : (s.push16 v).carry = s.carry := rfl
@[simp] theorem State.parity_push16 (s : State) (v : Word) : (s.push16 v).parity = s.parity := rfl
@[simp] theorem State.interruptEnabled_push16 (s : State) (v : Word) : (s.push16 v).interruptEnabled = s.interruptEnabled := rfl
@[simp] theorem State.crashed_push16 (s : State) (v : Word) : (s.push16 v).crashed = s.crashed := rfl
@[simp] theorem State.instructionCounter_push16 (s : State) (v : Word) : (s.push16 v).instructionCounter = s.instructionCounter := rfl
@[simp] theorem State.interruptAlternate_push16 (s : State) (v : Word) : (s.push16 v).interruptAlternate = s.interruptAlternate := rfl
@[simp] theorem State.mem_push16 (s : State) (v : Word) : (s.push16 v).mem = s.mem.writeWord (s.sp - 2) v := rfl
@[simp] theorem State.portInputs_push16 (s : State) (v : Word) : (s.push16 v).portInputs = s.portInputs := rfl
@[simp] theorem State.portEvents_push16 (s : State) (v : Word) : (s.push16 v).portEvents = s.portEvents := rfl

/-! ### `popped` -/

@[simp] theorem State.params_popped (s : State) : (s.popped).params = s.params := rfl
@[simp] theorem State.a_popped (s : State) : (s.popped).a = s.a := rfl
@[simp] theorem State.b_popped (s : State) : (s.popped).b = s.b := rfl
@[simp] theorem State.c_popped (s : State) : (s.popped).c = s.c := rfl
@[simp] theorem State.d_popped (s : State) : (s.popped).d = s.d := rfl
@[simp] theorem State.e_popped (s : State) : (s.popped).e = s.e := rfl
@[simp] theorem State.h_popped (s : State) : (s.popped).h = s.h := rfl
@[simp] theorem State.l_popped (s : State) : (s.popped).l = s.l := rfl
@[simp] theorem State.pc_popped (s : State) : (s.popped).pc = s.pc := rfl
@[simp] theorem State.sp_popped (s : State) : (s.popped).sp = s.sp + 2 := rfl
@[simp] theorem State.zero_popped (s : State) : (s.popped).zero = s.zero := rfl
@[simp] theorem State.sign_popped (s : State) : (s.popped).sign = s.sign := rfl
@[simp] theorem State.halfCarry_popped (s : State) : (s.popped).halfCarry = s.halfCarry := rfl
@[simp] theorem State.carry_popped (s : State) : (s.popped).carry = s.carry := rfl
@[simp] theorem State.parity_popped (s : State) : (s.popped).parity = s.parity := rfl
@[simp] theorem State.interruptEnabled_popped (s : State) : (s.popped).interruptEnabled = s.interruptEnabled := rfl
@[simp] theorem State.crashed_popped (s : State) : (s.popped).crashed = s.crashed := rfl
@[simp] theorem State.instructionCounter_popped (s : State) : (s.popped).instructionCounter = s.instructionCounter := rfl
@[simp] theorem State.interruptAlternate_popped (s : State) : (s.popped).interruptAlternate = s.interruptAlternate := rfl
@[simp] theorem State.mem_popped (s : State) : (s.popped).mem = s.mem := rfl
@[simp] theorem State.portInputs_popped (s : State) : (s.popped).portInputs = s.portInputs := rfl
@[simp] theorem State.portEvents_popped (s : State) : (s.popped).portEvents = s.portEvents := rfl

/-! ### `jumpTo` -/

@[simp] theorem State.params_jumpTo (s : State) (v : Word) : (s.jumpTo v).params = s.params := rfl
@[simp] theorem State.a_jumpTo (s : State) (v : Word) : (s.jumpTo v).a = s.a := rfl
@[simp] theorem State.b_jumpTo (s : State) (v : Word) : (s.jumpTo v).b = s.b := rfl
@[simp] theorem State.c_jumpTo (s : State) (v : Word) : (s.jumpTo v).c = s.c := rfl
@[simp] theorem State.d_jumpTo (s : State) (v : Word) : (s.jumpTo v).d = s.d := rfl
@[simp] theorem State.e_jumpTo (s : State) (v : Word) : (s.jumpTo v).e = s.e := rfl
@[simp] theorem State.h_jumpTo (s : State) (v : Word) : (s.jumpTo v).h = s.h := rfl
@[simp] theorem State.l_jumpTo (s : State) (v : Word) : (s.jumpTo v).l = s.l := rfl
@[simp] theorem State.pc_jumpTo (s : State) (v : Word) : (s.jumpTo v).pc = v := rfl
@[simp] theorem State.sp_jumpTo (s : State) (v : Word) : (s.jumpTo v).sp = s.sp := rfl
@[simp] theorem State.zero_jumpTo (s : State) (v : Word) : (s.jumpTo v).zero = s.zero := rfl
@[simp] theorem State.sign_jumpTo (s : State) (v : Word) : (s.jumpTo v).sign = s.sign := rfl
@[simp] theorem State.halfCarry_jumpTo (s : State) (v : Word) : (s.jumpTo v).halfCarry = s.halfCarry := rfl
@[simp] theorem State.carry_jumpTo (s : State) (v : Word) : (s.jumpTo v).carry = s.carry := rfl
@[simp] theorem State.parity_jumpTo (s : State) (v : Word) : (s.jumpTo v).parity = s.parity := rfl
@[simp] theorem State.interruptEnabled_jumpTo (s : State) (v : Word) : (s.jumpTo v).interruptEnabled = s.interruptEnabled := rfl
@[simp] theorem State.crashed_jumpTo (s : State) (v : Word) : (s.jumpTo v).crashed = s.crashed := rfl
@[simp] theorem State.instructionCounter_jumpTo (s : State) (v : Word) : (s.jumpTo v).instructionCounter = s.instructionCounter := rfl
@[simp] theorem State.interruptAlternate_jumpTo (s : State) (v : Word) : (s.jumpTo v).interruptAlternate = s.interruptAlternate := rfl
@[simp] theorem State.mem_jumpTo (s : State) (v : Word) : (s.jumpTo v).mem = s.mem := rfl
@[simp] theorem State.portInputs_jumpTo (s : State) (v : Word) : (s.jumpTo v).portInputs = s.portInputs := rfl
@[simp] theorem State.portEvents_jumpTo (s : State) (v : Word) : (s.jumpTo v).portEvents = s.portEvents := rfl

/-! ### `callTo` -/

@[simp] theorem State.params_callTo (s : State) (v : Word) : (s.callTo v).params = s.params := rfl
@[simp] theorem State.a_callTo (s : State) (v : Word) : (s.callTo v).a = s.a := rfl
@[simp] theorem State.b_callTo (s : State) (v : Word) : (s.callTo v).b = s.b := rfl
@[simp] theorem State.c_callTo (s : State) (v : Word) : (s.callTo v).c = s.c := rfl
@[simp] theorem State.d_callTo (s : State) (v : Word) : (s.callTo v).d = s.d := rfl
@[simp] theorem State.e_callTo (s : State) (v : Word) : (s.callTo v).e = s.e := rfl
@[simp] theorem State.h_callTo (s : State) (v : Word) : (s.callTo v).h = s.h := rfl
@[simp] theorem State.l_callTo (s : State) (v : Word) : (s.callTo v).l = s.l := rfl
@[simp] theorem State.pc_callTo (s : State) (v : Word) : (s.callTo v).pc = v := rfl
@[simp] theorem State.sp_callTo (s : State) (v : Word) : (s.callTo v).sp = s.sp - 2 := rfl
@[simp] theorem State.zero_callTo (s : State) (v : Word) : (s.callTo v).zero = s.zero := rfl
@[simp] theorem State.sign_callTo (s : State) (v : Word) : (s.callTo v).sign = s.sign := rfl
@[simp] theorem State.halfCarry_callTo (s : State) (v : Word) : (s.callTo v).halfCarry = s.halfCarry := rfl
@[simp] theorem State.carry_callTo (s : State) (v : Word) : (s.callTo v).carry = s.carry := rfl
@[simp] theorem State.parity_callTo (s : State) (v : Word) : (s.callTo v).parity = s.parity := rfl
@[simp] theorem State.interruptEnabled_callTo (s : State) (v : Word) : (s.callTo v).interruptEnabled = s.interruptEnabled := rfl
@[simp] theorem State.crashed_callTo (s : State) (v : Word) : (s.callTo v).crashed = s.crashed := rfl
@[simp] theorem State.instructionCounter_callTo (s : State) (v : Word) : (s.callTo v).instructionCounter = s.instructionCounter := rfl
@[simp] theorem State.interruptAlternate_callTo (s : State) (v : Word) : (s.callTo v).interruptAlternate = s.interruptAlternate := rfl
@[simp] theorem State.mem_callTo (s : State) (v : Word) : (s.callTo v).mem = s.mem.writeWord (s.sp - 2) s.pc := rfl
@[simp] theorem State.portInputs_callTo (s : State) (v : Word) : (s.callTo v).portInputs = s.portInputs := rfl
@[simp] theorem State.portEvents_callTo (s : State) (v : Word) : (s.callTo v).portEvents = s.portEvents := rfl

/-! ### `ret` -/

@[simp] theorem State.params_ret (s : State) : (s.ret).params = s.params := rfl
@[simp] theorem State.a_ret (s : State) : (s.ret).a = s.a := rfl
@[simp] theorem State.b_ret (s : State) : (s.ret).b = s.b := rfl
@[simp] theorem State.c_ret (s : State) : (s.ret).c = s.c := rfl
@[simp] theorem State.d_ret (s : State) : (s.ret).d = s.d := rfl
@[simp] theorem State.e_ret (s : State) : (s.ret).e = s.e := rfl
@[simp] theorem State.h_ret (s : State) : (s.ret).h = s.h := rfl
@[simp] theorem State.l_ret (s : State) : (s.ret).l = s.l := rfl
@[simp] theorem State.pc_ret (s : State) : (s.ret).pc = s.popValue := rfl
@[simp] theorem State.sp_ret (s : State) : (s.ret).sp = s.sp + 2 := rfl
@[simp] theorem State.zero_ret (s : State) : (s.ret).zero = s.zero := rfl
@[simp] theorem State.sign_ret (s : State) : (s.ret).sign = s.sign := rfl
@[simp] theorem State.halfCarry_ret (s : State) : (s.ret).halfCarry = s.halfCarry := rfl
@[simp] theorem State.carry_ret (s : State) : (s.ret).carry = s.carry := rfl
@[simp] theorem State.parity_ret (s : State) : (s.ret).parity = s.parity := rfl
@[simp] theorem State.interruptEnabled_ret (s : State) : (s.ret).interruptEnabled = s.interruptEnabled := rfl
@[simp] theorem State.crashed_ret (s : State) : (s.ret).crashed = s.crashed := rfl
@[simp] theorem State.instructionCounter_ret (s : State) : (s.ret).instructionCounter = s.instructionCounter := rfl
@[simp] theorem State.interruptAlternate_ret (s : State) : (s.ret).interruptAlternate = s.interruptAlternate := rfl
@[simp] theorem State.mem_ret (s : State) : (s.ret).mem = s.mem := rfl
@[simp] theorem State.portInputs_ret (s : State) : (s.ret).portInputs = s.portInputs := rfl
@[simp] theorem State.portEvents_ret (s : State) : (s.ret).portEvents = s.portEvents := rfl

/-! ### `crash` -/

@[simp] theorem State.params_crash (s : State) : (s.crash).params = s.params := rfl
@[simp] theorem State.a_crash (s : State) : (s.crash).a = s.a := rfl
@[simp] theorem State.b_crash (s : State) : (s.crash).b = s.b := rfl
@[simp] theorem State.c_crash (s : State) : (s.crash).c = s.c := rfl
@[simp] theorem State.d_crash (s : State) : (s.crash).d = s.d := rfl
@[simp] theorem State.e_crash (s : State) : (s.crash).e = s.e := rfl
@[simp] theorem State.h_crash (s : State) : (s.crash).h = s.h := rfl
@[simp] theorem State.l_crash (s : State) : (s.crash).l = s.l := rfl
@[simp] theorem State.pc_crash (s : State) : (s.crash).pc = s.pc := rfl
@[simp] theorem State.sp_crash (s : State) : (s.crash).sp = s.sp := rfl
@[simp] theorem State.zero_crash (s : State) : (s.crash).zero = s.zero := rfl
@[simp] theorem State.sign_crash (s : State) : (s.crash).sign = s.sign := rfl
@[simp] theorem State.halfCarry_crash (s : State) : (s.crash).halfCarry = s.halfCarry := rfl
@[simp] theorem State.carry_crash (s : State) : (s.crash).carry = s.carry := rfl
@[simp] theorem State.parity_crash (s : State) : (s.crash).parity = s.parity := rfl
@[simp] theorem State.interruptEnabled_crash (s : State) : (s.crash).interruptEnabled = s.interruptEnabled := rfl
@[simp] theorem State.crashed_crash (s : State) : (s.crash).crashed = true := rfl
@[simp] theorem State.instructionCounter_crash (s : State) : (s.crash).instructionCounter = s.instructionCounter := rfl
@[simp] theorem State.interruptAlternate_crash (s : State) : (s.crash).interruptAlternate = s.interruptAlternate := rfl
@[simp] theorem State.mem_crash (s : State) : (s.crash).mem = s.mem := rfl
@[simp] theorem State.portInputs_crash (s : State) : (s.crash).portInputs = s.portInputs := rfl
@[simp] theorem State.portEvents_crash (s : State) : (s.crash).portEvents = s.portEvents := rfl

/-! ### `inject` -/

@[simp] theorem State.params_inject (s : State) : (s.inject).params = s.params := rfl
@[simp] theorem State.a_inject (s : State) : (s.inject).a = s.a := rfl
@[simp] theorem State.b_inject (s : State) : (s.inject).b = s.b := rfl
@[simp] theorem State.c_inject (s : State) : (s.inject).c = s.c := rfl
@[simp] theorem State.d_inject (s : State) : (s.inject).d = s.d := rfl
@[simp] theorem State.e_inject (s : State) : (s.inject).e = s.e := rfl
@[simp] theorem State.h_inject (s : State) : (s.inject).h = s.h := rfl
@[simp] theorem State.l_inject (s : State) : (s.inject).l = s.l := rfl
@[simp] theorem State.pc_inject (s : State) : (s.inject).pc = s.interruptVector := rfl
@[simp] theorem State.sp_inject (s : State) : (s.inject).sp = s.sp - 2 := rfl
@[simp] theorem State.zero_inject (s : State) : (s.inject).zero = s.zero := rfl
@[simp] theorem State.sign_inject (s : State) : (s.inject).sign = s.sign := rfl
@[simp] theorem State.halfCarry_inject (s : State) : (s.inject).halfCarry = s.halfCarry := rfl
@[simp] theorem State.carry_inject (s : State) : (s.inject).carry = s.carry := rfl
@[simp] theorem State.parity_inject (s : State) : (s.inject).parity = s.parity := rfl
@[simp] theorem State.interruptEnabled_inject (s : State) : (s.inject).interruptEnabled = false := rfl
@[simp] theorem State.crashed_inject (s : State) : (s.inject).crashed = s.crashed := rfl
@[simp] theorem State.instructionCounter_inject (s : State) : (s.inject).instructionCounter = s.instructionCounter := rfl
@[simp] theorem State.interruptAlternate_inject (s : State) : (s.inject).interruptAlternate = !s.interruptAlternate := rfl
@[simp] theorem State.mem_inject (s : State) : (s.inject).mem = s.mem.writeWord (s.sp - 2) s.pc := rfl
@[simp] theorem State.portInputs_inject (s : State) : (s.inject).portInputs = s.portInputs := rfl
@[simp] theorem State.portEvents_inject (s : State) : (s.inject).portEvents = s.portEvents := rfl

/-! ### `portOut` -/

@[simp] theorem State.params_portOut (s : State) (p v : Byte) : (s.portOut p v).params = s.params := rfl
@[simp] theorem State.a_portOut (s : State) (p v : Byte) : (s.portOut p v).a = s.a := rfl
@[simp] theorem State.b_portOut (s : State) (p v : Byte) : (s.portOut p v).b = s.b := rfl
@[simp] theorem State.c_portOut (s : State) (p v : Byte) : (s.portOut p v).c = s.c := rfl
@[simp] theorem State.d_portOut (s : State) (p v : Byte) : (s.portOut p v).d = s.d := rfl
@[simp] theorem State.e_portOut (s : State) (p v : Byte) : (s.portOut p v).e = s.e := rfl
@[simp] theorem State.h_portOut (s : State) (p v : Byte) : (s.portOut p v).h = s.h := rfl
@[simp] theorem State.l_portOut (s : State) (p v : Byte) : (s.portOut p v).l = s.l := rfl
@[simp] theorem State.pc_portOut (s : State) (p v : Byte) : (s.portOut p v).pc = s.pc := rfl
@[simp] theorem State.sp_portOut (s : State) (p v : Byte) : (s.portOut p v).sp = s.sp := rfl
@[simp] theorem State.zero_portOut (s : State) (p v : Byte) : (s.portOut p v).zero = s.zero := rfl
@[simp] theorem State.sign_portOut (s : State) (p v : Byte) : (s.portOut p v).sign = s.sign := rfl
@[simp] theorem State.halfCarry_portOut (s : State) (p v : Byte) : (s.portOut p v).halfCarry = s.halfCarry := rfl
@[simp] theorem State.carry_portOut (s : State) (p v : Byte) : (s.portOut p v).carry = s.carry := rfl
@[simp] theorem State.parity_portOut (s : State) (p v : Byte) : (s.portOut p v).parity = s.parity := rfl
@[simp] theorem State.interruptEnabled_portOut (s : State) (p v : Byte) : (s.portOut p v).interruptEnabled = s.interruptEnabled := rfl
@[simp] theorem State.crashed_portOut (s : State) (p v : Byte) : (s.portOut p v).crashed = s.crashed := rfl
@[simp] theorem State.instructionCounter_portOut (s : State) (p v : Byte) : (s.portOut p v).instructionCounter = s.instructionCounter := rfl
@[simp] theorem State.interruptAlternate_portOut (s : State) (p v : Byte) : (s.portOut p v).interruptAlternate = s.interruptAlternate := rfl
@[simp] theorem State.mem_portOut (s : State) (p v : Byte) : (s.portOut p v).mem = s.mem := rfl
@[simp] theorem State.portInputs_portOut (s : State) (p v : Byte) : (s.portOut p v).portInputs = s.portInputs := rfl
@[simp] theorem State.portEvents_portOut (s : State) (p v : Byte) : (s.portOut p v).portEvents = s.portEvents ++ [.output p v] := rfl

/-! ### `portIn` -/

@[simp] theorem State.params_portIn (s : State) (p : Byte) : (s.portIn p).params = s.params := rfl
@[simp] theorem State.a_portIn (s : State) (p : Byte) : (s.portIn p).a = s.portAnswer p := rfl
@[simp] theorem State.b_portIn (s : State) (p : Byte) : (s.portIn p).b = s.b := rfl
@[simp] theorem State.c_portIn (s : State) (p : Byte) : (s.portIn p).c = s.c := rfl
@[simp] theorem State.d_portIn (s : State) (p : Byte) : (s.portIn p).d = s.d := rfl
@[simp] theorem State.e_portIn (s : State) (p : Byte) : (s.portIn p).e = s.e := rfl
@[simp] theorem State.h_portIn (s : State) (p : Byte) : (s.portIn p).h = s.h := rfl
@[simp] theorem State.l_portIn (s : State) (p : Byte) : (s.portIn p).l = s.l := rfl
@[simp] theorem State.pc_portIn (s : State) (p : Byte) : (s.portIn p).pc = s.pc := rfl
@[simp] theorem State.sp_portIn (s : State) (p : Byte) : (s.portIn p).sp = s.sp := rfl
@[simp] theorem State.zero_portIn (s : State) (p : Byte) : (s.portIn p).zero = s.zero := rfl
@[simp] theorem State.sign_portIn (s : State) (p : Byte) : (s.portIn p).sign = s.sign := rfl
@[simp] theorem State.halfCarry_portIn (s : State) (p : Byte) : (s.portIn p).halfCarry = s.halfCarry := rfl
@[simp] theorem State.carry_portIn (s : State) (p : Byte) : (s.portIn p).carry = s.carry := rfl
@[simp] theorem State.parity_portIn (s : State) (p : Byte) : (s.portIn p).parity = s.parity := rfl
@[simp] theorem State.interruptEnabled_portIn (s : State) (p : Byte) : (s.portIn p).interruptEnabled = s.interruptEnabled := rfl
@[simp] theorem State.crashed_portIn (s : State) (p : Byte) : (s.portIn p).crashed = s.crashed := rfl
@[simp] theorem State.instructionCounter_portIn (s : State) (p : Byte) : (s.portIn p).instructionCounter = s.instructionCounter := rfl
@[simp] theorem State.interruptAlternate_portIn (s : State) (p : Byte) : (s.portIn p).interruptAlternate = s.interruptAlternate := rfl
@[simp] theorem State.mem_portIn (s : State) (p : Byte) : (s.portIn p).mem = s.mem := rfl
@[simp] theorem State.portInputs_portIn (s : State) (p : Byte) : (s.portIn p).portInputs = s.portInputs.tail := rfl
@[simp] theorem State.portEvents_portIn (s : State) (p : Byte) : (s.portIn p).portEvents = s.portEvents ++ [.input p (s.portAnswer p)] := rfl

/-! ### `setZS` -/

@[simp] theorem State.params_setZS (s : State) (r : Byte) : (s.setZS r).params = s.params := rfl
@[simp] theorem State.a_setZS (s : State) (r : Byte) : (s.setZS r).a = s.a := rfl
@[simp] theorem State.b_setZS (s : State) (r : Byte) : (s.setZS r).b = s.b := rfl
@[simp] theorem State.c_setZS (s : State) (r : Byte) : (s.setZS r).c = s.c := rfl
@[simp] theorem State.d_setZS (s : State) (r : Byte) : (s.setZS r).d = s.d := rfl
@[simp] theorem State.e_setZS (s : State) (r : Byte) : (s.setZS r).e = s.e := rfl
@[simp] theorem State.h_setZS (s : State) (r : Byte) : (s.setZS r).h = s.h := rfl
@[simp] theorem State.l_setZS (s : State) (r : Byte) : (s.setZS r).l = s.l := rfl
@[simp] theorem State.pc_setZS (s : State) (r : Byte) : (s.setZS r).pc = s.pc := rfl
@[simp] theorem State.sp_setZS (s : State) (r : Byte) : (s.setZS r).sp = s.sp := rfl
@[simp] theorem State.zero_setZS (s : State) (r : Byte) : (s.setZS r).zero = (r == 0) := rfl
@[simp] theorem State.sign_setZS (s : State) (r : Byte) : (s.setZS r).sign = r.getLsbD 7 := rfl
@[simp] theorem State.halfCarry_setZS (s : State) (r : Byte) : (s.setZS r).halfCarry = s.halfCarry := rfl
@[simp] theorem State.carry_setZS (s : State) (r : Byte) : (s.setZS r).carry = s.carry := rfl
@[simp] theorem State.parity_setZS (s : State) (r : Byte) : (s.setZS r).parity = s.parity := rfl
@[simp] theorem State.interruptEnabled_setZS (s : State) (r : Byte) : (s.setZS r).interruptEnabled = s.interruptEnabled := rfl
@[simp] theorem State.crashed_setZS (s : State) (r : Byte) : (s.setZS r).crashed = s.crashed := rfl
@[simp] theorem State.instructionCounter_setZS (s : State) (r : Byte) : (s.setZS r).instructionCounter = s.instructionCounter := rfl
@[simp] theorem State.interruptAlternate_setZS (s : State) (r : Byte) : (s.setZS r).interruptAlternate = s.interruptAlternate := rfl
@[simp] theorem State.mem_setZS (s : State) (r : Byte) : (s.setZS r).mem = s.mem := rfl
@[simp] theorem State.portInputs_setZS (s : State) (r : Byte) : (s.setZS r).portInputs = s.portInputs := rfl
@[simp] theorem State.portEvents_setZS (s : State) (r : Byte) : (s.setZS r).portEvents = s.portEvents := rfl

/-! ### `setIncDecFlags` -/

@[simp] theorem State.params_setIncDecFlags (s : State) (v r : Byte) : (s.setIncDecFlags v r).params = s.params := rfl
@[simp] theorem State.a_setIncDecFlags (s : State) (v r : Byte) : (s.setIncDecFlags v r).a = s.a := rfl
@[simp] theorem State.b_setIncDecFlags (s : State) (v r : Byte) : (s.setIncDecFlags v r).b = s.b := rfl
@[simp] theorem State.c_setIncDecFlags (s : State) (v r : Byte) : (s.setIncDecFlags v r).c = s.c := rfl
@[simp] theorem State.d_setIncDecFlags (s : State) (v r : Byte) : (s.setIncDecFlags v r).d = s.d := rfl
@[simp] theorem State.e_setIncDecFlags (s : State) (v r : Byte) : (s.setIncDecFlags v r).e = s.e := rfl
@[simp] theorem State.h_setIncDecFlags (s : State) (v r : Byte) : (s.setIncDecFlags v r).h = s.h := rfl
@[simp] theorem State.l_setIncDecFlags (s : State) (v r : Byte) : (s.setIncDecFlags v r).l = s.l := rfl
@[simp] theorem State.pc_setIncDecFlags (s : State) (v r : Byte) : (s.setIncDecFlags v r).pc = s.pc := rfl
@[simp] theorem State.sp_setIncDecFlags (s : State) (v r : Byte) : (s.setIncDecFlags v r).sp = s.sp := rfl
@[simp] theorem State.zero_setIncDecFlags (s : State) (v r : Byte) : (s.setIncDecFlags v r).zero = (r == 0) := rfl
@[simp] theorem State.sign_setIncDecFlags (s : State) (v r : Byte) : (s.setIncDecFlags v r).sign = r.getLsbD 7 := rfl
@[simp] theorem State.halfCarry_setIncDecFlags (s : State) (v r : Byte) : (s.setIncDecFlags v r).halfCarry = halfCarryBit v.toNat 1 r.toNat := rfl
@[simp] theorem State.carry_setIncDecFlags (s : State) (v r : Byte) : (s.setIncDecFlags v r).carry = s.carry := rfl
@[simp] theorem State.parity_setIncDecFlags (s : State) (v r : Byte) : (s.setIncDecFlags v r).parity = s.parity := rfl
@[simp] theorem State.interruptEnabled_setIncDecFlags (s : State) (v r : Byte) : (s.setIncDecFlags v r).interruptEnabled = s.interruptEnabled := rfl
@[simp] theorem State.crashed_setIncDecFlags (s : State) (v r : Byte) : (s.setIncDecFlags v r).crashed = s.crashed := rfl
@[simp] theorem State.instructionCounter_setIncDecFlags (s : State) (v r : Byte) : (s.setIncDecFlags v r).instructionCounter = s.instructionCounter := rfl
@[simp] theorem State.interruptAlternate_setIncDecFlags (s : State) (v r : Byte) : (s.setIncDecFlags v r).interruptAlternate = s.interruptAlternate := rfl
@[simp] theorem State.mem_setIncDecFlags (s : State) (v r : Byte) : (s.setIncDecFlags v r).mem = s.mem := rfl
@[simp] theorem State.portInputs_setIncDecFlags (s : State) (v r : Byte) : (s.setIncDecFlags v r).portInputs = s.portInputs := rfl
@[simp] theorem State.portEvents_setIncDecFlags (s : State) (v r : Byte) : (s.setIncDecFlags v r).portEvents = s.portEvents := rfl

/-! ### `logic8` -/

@[simp] theorem State.params_logic8 (s : State) (r : Byte) : (s.logic8 r).params = s.params := rfl
@[simp] theorem State.a_logic8 (s : State) (r : Byte) : (s.logic8 r).a = r := rfl
@[simp] theorem State.b_logic8 (s : State) (r : Byte) : (s.logic8 r).b = s.b := rfl
@[simp] theorem State.c_logic8 (s : State) (r : Byte) : (s.logic8 r).c = s.c := rfl
@[simp] theorem State.d_logic8 (s : State) (r : Byte) : (s.logic8 r).d = s.d := rfl
@[simp] theorem State.e_logic8 (s : State) (r : Byte) : (s.logic8 r).e = s.e := rfl
@[simp] theorem State.h_logic8 (s : State) (r : Byte) : (s.logic8 r).h = s.h := rfl
@[simp] theorem State.l_logic8 (s : State) (r : Byte) : (s.logic8 r).l = s.l := rfl
@[simp] theorem State.pc_logic8 (s : State) (r : Byte) : (s.logic8 r).pc = s.pc := rfl
@[simp] theorem State.sp_logic8 (s : State) (r : Byte) : (s.logic8 r).sp = s.sp := rfl
@[simp] theorem State.zero_logic8 (s : State) (r : Byte) : (s.logic8 r).zero = (r == 0) := rfl
@[simp] theorem State.sign_logic8 (s : State) (r : Byte) : (s.logic8 r).sign = r.getLsbD 7 := rfl
@[simp] theorem State.halfCarry_logic8 (s : State) (r : Byte) : (s.logic8 r).halfCarry = false := rfl
@[simp] theorem State.carry_logic8 (s : State) (r : Byte) : (s.logic8 r).carry = false := rfl
@[simp] theorem State.parity_logic8 (s : State) (r : Byte) : (s.logic8 r).parity = s.parity := rfl
@[simp] theorem State.interruptEnabled_logic8 (s : State) (r : Byte) : (s.logic8 r).interruptEnabled = s.interruptEnabled := rfl
@[simp] theorem State.crashed_logic8 (s : State) (r : Byte) : (s.logic8 r).crashed = s.crashed := rfl
@[simp] theorem State.instructionCounter_logic8 (s : State) (r : Byte) : (s.logic8 r).instructionCounter = s.instructionCounter := rfl
@[simp] theorem State.interruptAlternate_logic8 (s : State) (r : Byte) : (s.logic8 r).interruptAlternate = s.interruptAlternate := rfl
@[simp] theorem State.mem_logic8 (s : State) (r : Byte) : (s.logic8 r).mem = s.mem := rfl
@[simp] theorem State.portInputs_logic8 (s : State) (r : Byte) : (s.logic8 r).portInputs = s.portInputs := rfl
@[simp] theorem State.portEvents_logic8 (s : State) (r : Byte) : (s.logic8 r).portEvents = s.portEvents := rfl

/-! ### `add8`: the fields it leaves alone -/

@[simp] theorem State.params_add8 (s : State) (v : Byte) (cin : Bool) : (s.add8 v cin).params = s.params := rfl
@[simp] theorem State.b_add8 (s : State) (v : Byte) (cin : Bool) : (s.add8 v cin).b = s.b := rfl
@[simp] theorem State.c_add8 (s : State) (v : Byte) (cin : Bool) : (s.add8 v cin).c = s.c := rfl
@[simp] theorem State.d_add8 (s : State) (v : Byte) (cin : Bool) : (s.add8 v cin).d = s.d := rfl
@[simp] theorem State.e_add8 (s : State) (v : Byte) (cin : Bool) : (s.add8 v cin).e = s.e := rfl
@[simp] theorem State.h_add8 (s : State) (v : Byte) (cin : Bool) : (s.add8 v cin).h = s.h := rfl
@[simp] theorem State.l_add8 (s : State) (v : Byte) (cin : Bool) : (s.add8 v cin).l = s.l := rfl
@[simp] theorem State.pc_add8 (s : State) (v : Byte) (cin : Bool) : (s.add8 v cin).pc = s.pc := rfl
@[simp] theorem State.sp_add8 (s : State) (v : Byte) (cin : Bool) : (s.add8 v cin).sp = s.sp := rfl
@[simp] theorem State.parity_add8 (s : State) (v : Byte) (cin : Bool) : (s.add8 v cin).parity = s.parity := rfl
@[simp] theorem State.interruptEnabled_add8 (s : State) (v : Byte) (cin : Bool) : (s.add8 v cin).interruptEnabled = s.interruptEnabled := rfl
@[simp] theorem State.crashed_add8 (s : State) (v : Byte) (cin : Bool) : (s.add8 v cin).crashed = s.crashed := rfl
@[simp] theorem State.instructionCounter_add8 (s : State) (v : Byte) (cin : Bool) : (s.add8 v cin).instructionCounter = s.instructionCounter := rfl
@[simp] theorem State.interruptAlternate_add8 (s : State) (v : Byte) (cin : Bool) : (s.add8 v cin).interruptAlternate = s.interruptAlternate := rfl
@[simp] theorem State.mem_add8 (s : State) (v : Byte) (cin : Bool) : (s.add8 v cin).mem = s.mem := rfl
@[simp] theorem State.portInputs_add8 (s : State) (v : Byte) (cin : Bool) : (s.add8 v cin).portInputs = s.portInputs := rfl
@[simp] theorem State.portEvents_add8 (s : State) (v : Byte) (cin : Bool) : (s.add8 v cin).portEvents = s.portEvents := rfl

/-! ### `sub8`: the fields it leaves alone -/

@[simp] theorem State.params_sub8 (s : State) (v : Byte) (cin st : Bool) : (s.sub8 v cin st).params = s.params := rfl
@[simp] theorem State.b_sub8 (s : State) (v : Byte) (cin st : Bool) : (s.sub8 v cin st).b = s.b := rfl
@[simp] theorem State.c_sub8 (s : State) (v : Byte) (cin st : Bool) : (s.sub8 v cin st).c = s.c := rfl
@[simp] theorem State.d_sub8 (s : State) (v : Byte) (cin st : Bool) : (s.sub8 v cin st).d = s.d := rfl
@[simp] theorem State.e_sub8 (s : State) (v : Byte) (cin st : Bool) : (s.sub8 v cin st).e = s.e := rfl
@[simp] theorem State.h_sub8 (s : State) (v : Byte) (cin st : Bool) : (s.sub8 v cin st).h = s.h := rfl
@[simp] theorem State.l_sub8 (s : State) (v : Byte) (cin st : Bool) : (s.sub8 v cin st).l = s.l := rfl
@[simp] theorem State.pc_sub8 (s : State) (v : Byte) (cin st : Bool) : (s.sub8 v cin st).pc = s.pc := rfl
@[simp] theorem State.sp_sub8 (s : State) (v : Byte) (cin st : Bool) : (s.sub8 v cin st).sp = s.sp := rfl
@[simp] theorem State.parity_sub8 (s : State) (v : Byte) (cin st : Bool) : (s.sub8 v cin st).parity = s.parity := rfl
@[simp] theorem State.interruptEnabled_sub8 (s : State) (v : Byte) (cin st : Bool) : (s.sub8 v cin st).interruptEnabled = s.interruptEnabled := rfl
@[simp] theorem State.crashed_sub8 (s : State) (v : Byte) (cin st : Bool) : (s.sub8 v cin st).crashed = s.crashed := rfl
@[simp] theorem State.instructionCounter_sub8 (s : State) (v : Byte) (cin st : Bool) : (s.sub8 v cin st).instructionCounter = s.instructionCounter := rfl
@[simp] theorem State.interruptAlternate_sub8 (s : State) (v : Byte) (cin st : Bool) : (s.sub8 v cin st).interruptAlternate = s.interruptAlternate := rfl
@[simp] theorem State.mem_sub8 (s : State) (v : Byte) (cin st : Bool) : (s.sub8 v cin st).mem = s.mem := rfl
@[simp] theorem State.portInputs_sub8 (s : State) (v : Byte) (cin st : Bool) : (s.sub8 v cin st).portInputs = s.portInputs := rfl
@[simp] theorem State.portEvents_sub8 (s : State) (v : Byte) (cin st : Bool) : (s.sub8 v cin st).portEvents = s.portEvents := rfl

/-! ### `decimalAdjust`: the fields it leaves alone -/

@[simp] theorem State.params_decimalAdjust (s : State) : (s.decimalAdjust).params = s.params := rfl
@[simp] theorem State.b_decimalAdjust (s : State) : (s.decimalAdjust).b = s.b := rfl
@[simp] theorem State.c_decimalAdjust (s : State) : (s.decimalAdjust).c = s.c := rfl
@[simp] theorem State.d_decimalAdjust (s : State) : (s.decimalAdjust).d = s.d := rfl
@[simp] theorem State.e_decimalAdjust (s : State) : (s.decimalAdjust).e = s.e := rfl
@[simp] theorem State.h_decimalAdjust (s : State) : (s.decimalAdjust).h = s.h := rfl
@[simp] theorem State.l_decimalAdjust (s : State) : (s.decimalAdjust).l = s.l := rfl
@[simp] theorem State.pc_decimalAdjust (s : State) : (s.decimalAdjust).pc = s.pc := rfl
@[simp] theorem State.sp_decimalAdjust (s : State) : (s.decimalAdjust).sp = s.sp := rfl
@[simp] theorem State.parity_decimalAdjust (s : State) : (s.decimalAdjust).parity = s.parity := rfl
@[simp] theorem State.interruptEnabled_decimalAdjust (s : State) : (s.decimalAdjust).interruptEnabled = s.interruptEnabled := rfl
@[simp] theorem State.crashed_decimalAdjust (s : State) : (s.decimalAdjust).crashed = s.crashed := rfl
@[simp] theorem State.instructionCounter_decimalAdjust (s : State) : (s.decimalAdjust).instructionCounter = s.instructionCounter := rfl
@[simp] theorem State.interruptAlternate_decimalAdjust (s : State) : (s.decimalAdjust).interruptAlternate = s.interruptAlternate := rfl
@[simp] theorem State.mem_decimalAdjust (s : State) : (s.decimalAdjust).mem = s.mem := rfl
@[simp] theorem State.portInputs_decimalAdjust (s : State) : (s.decimalAdjust).portInputs = s.portInputs := rfl
@[simp] theorem State.portEvents_decimalAdjust (s : State) : (s.decimalAdjust).portEvents = s.portEvents := rfl

/-! ### `rotateLeft`: the fields it leaves alone -/

@[simp] theorem State.params_rotateLeft (s : State) (x : Bool) : (s.rotateLeft x).params = s.params := rfl
@[simp] theorem State.b_rotateLeft (s : State) (x : Bool) : (s.rotateLeft x).b = s.b := rfl
@[simp] theorem State.c_rotateLeft (s : State) (x : Bool) : (s.rotateLeft x).c = s.c := rfl
@[simp] theorem State.d_rotateLeft (s : State) (x : Bool) : (s.rotateLeft x).d = s.d := rfl
@[simp] theorem State.e_rotateLeft (s : State) (x : Bool) : (s.rotateLeft x).e = s.e := rfl
@[simp] theorem State.h_rotateLeft (s : State) (x : Bool) : (s.rotateLeft x).h = s.h := rfl
@[simp] theorem State.l_rotateLeft (s : State) (x : Bool) : (s.rotateLeft x).l = s.l := rfl
@[simp] theorem State.pc_rotateLeft (s : State) (x : Bool) : (s.rotateLeft x).pc = s.pc := rfl
@[simp] theorem State.sp_rotateLeft (s : State) (x : Bool) : (s.rotateLeft x).sp = s.sp := rfl
@[simp] theorem State.zero_rotateLeft (s : State) (x : Bool) : (s.rotateLeft x).zero = s.zero := rfl
@[simp] theorem State.sign_rotateLeft (s : State) (x : Bool) : (s.rotateLeft x).sign = s.sign := rfl
@[simp] theorem State.halfCarry_rotateLeft (s : State) (x : Bool) : (s.rotateLeft x).halfCarry = s.halfCarry := rfl
@[simp] theorem State.parity_rotateLeft (s : State) (x : Bool) : (s.rotateLeft x).parity = s.parity := rfl
@[simp] theorem State.interruptEnabled_rotateLeft (s : State) (x : Bool) : (s.rotateLeft x).interruptEnabled = s.interruptEnabled := rfl
@[simp] theorem State.crashed_rotateLeft (s : State) (x : Bool) : (s.rotateLeft x).crashed = s.crashed := rfl
@[simp] theorem State.instructionCounter_rotateLeft (s : State) (x : Bool) : (s.rotateLeft x).instructionCounter = s.instructionCounter := rfl
@[simp] theorem State.interruptAlternate_rotateLeft (s : State) (x : Bool) : (s.rotateLeft x).interruptAlternate = s.interruptAlternate := rfl
@[simp] theorem State.mem_rotateLeft (s : State) (x : Bool) : (s.rotateLeft x).mem = s.mem := rfl
@[simp] theorem State.portInputs_rotateLeft (s : State) (x : Bool) : (s.rotateLeft x).portInputs = s.portInputs := rfl
@[simp] theorem State.portEvents_rotateLeft (s : State) (x : Bool) : (s.rotateLeft x).portEvents = s.portEvents := rfl

/-! ### `rotateRight`: the fields it leaves alone -/

@[simp] theorem State.params_rotateRight (s : State) (x : Bool) : (s.rotateRight x).params = s.params := rfl
@[simp] theorem State.b_rotateRight (s : State) (x : Bool) : (s.rotateRight x).b = s.b := rfl
@[simp] theorem State.c_rotateRight (s : State) (x : Bool) : (s.rotateRight x).c = s.c := rfl
@[simp] theorem State.d_rotateRight (s : State) (x : Bool) : (s.rotateRight x).d = s.d := rfl
@[simp] theorem State.e_rotateRight (s : State) (x : Bool) : (s.rotateRight x).e = s.e := rfl
@[simp] theorem State.h_rotateRight (s : State) (x : Bool) : (s.rotateRight x).h = s.h := rfl
@[simp] theorem State.l_rotateRight (s : State) (x : Bool) : (s.rotateRight x).l = s.l := rfl
@[simp] theorem State.pc_rotateRight (s : State) (x : Bool) : (s.rotateRight x).pc = s.pc := rfl
@[simp] theorem State.sp_rotateRight (s : State) (x : Bool) : (s.rotateRight x).sp = s.sp := rfl
@[simp] theorem State.zero_rotateRight (s : State) (x : Bool) : (s.rotateRight x).zero = s.zero := rfl
@[simp] theorem State.sign_rotateRight (s : State) (x : Bool) : (s.rotateRight x).sign = s.sign := rfl
@[simp] theorem State.halfCarry_rotateRight (s : State) (x : Bool) : (s.rotateRight x).halfCarry = s.halfCarry := rfl
@[simp] theorem State.parity_rotateRight (s : State) (x : Bool) : (s.rotateRight x).parity = s.parity := rfl
@[simp] theorem State.interruptEnabled_rotateRight (s : State) (x : Bool) : (s.rotateRight x).interruptEnabled = s.interruptEnabled := rfl
@[simp] theorem State.crashed_rotateRight (s : State) (x : Bool) : (s.rotateRight x).crashed = s.crashed := rfl
@[simp] theorem State.instructionCounter_rotateRight (s : State) (x : Bool) : (s.rotateRight x).instructionCounter = s.instructionCounter := rfl
@[simp] theorem State.interruptAlternate_rotateRight (s : State) (x : Bool) : (s.rotateRight x).interruptAlternate = s.interruptAlternate := rfl
@[simp] theorem State.mem_rotateRight (s : State) (x : Bool) : (s.rotateRight x).mem = s.mem := rfl
@[simp] theorem State.portInputs_rotateRight (s : State) (x : Bool) : (s.rotateRight x).portInputs = s.portInputs := rfl
@[simp] theorem State.portEvents_rotateRight (s : State) (x : Bool) : (s.rotateRight x).portEvents = s.portEvents := rfl

/-! ### `addToHL`: the fields it leaves alone -/

@[simp] theorem State.params_addToHL (s : State) (v : Word) : (s.addToHL v).params = s.params := rfl
@[simp] theorem State.a_addToHL (s : State) (v : Word) : (s.addToHL v).a = s.a := rfl
@[simp] theorem State.b_addToHL (s : State) (v : Word) : (s.addToHL v).b = s.b := rfl
@[simp] theorem State.c_addToHL (s : State) (v : Word) : (s.addToHL v).c = s.c := rfl
@[simp] theorem State.d_addToHL (s : State) (v : Word) : (s.addToHL v).d = s.d := rfl
@[simp] theorem State.e_addToHL (s : State) (v : Word) : (s.addToHL v).e = s.e := rfl
@[simp] theorem State.pc_addToHL (s : State) (v : Word) : (s.addToHL v).pc = s.pc := rfl
@[simp] theorem State.sp_addToHL (s : State) (v : Word) : (s.addToHL v).sp = s.sp := rfl
@[simp] theorem State.zero_addToHL (s : State) (v : Word) : (s.addToHL v).zero = s.zero := rfl
@[simp] theorem State.sign_addToHL (s : State) (v : Word) : (s.addToHL v).sign = s.sign := rfl
@[simp] theorem State.halfCarry_addToHL (s : State) (v : Word) : (s.addToHL v).halfCarry = s.halfCarry := rfl
@[simp] theorem State.parity_addToHL (s : State) (v : Word) : (s.addToHL v).parity = s.parity := rfl
@[simp] theorem State.interruptEnabled_addToHL (s : State) (v : Word) : (s.addToHL v).interruptEnabled = s.interruptEnabled := rfl
@[simp] theorem State.crashed_addToHL (s : State) (v : Word) : (s.addToHL v).crashed = s.crashed := rfl
@[simp] theorem State.instructionCounter_addToHL (s : State) (v : Word) : (s.addToHL v).instructionCounter = s.instructionCounter := rfl
@[simp] theorem State.interruptAlternate_addToHL (s : State) (v : Word) : (s.addToHL v).interruptAlternate = s.interruptAlternate := rfl
@[simp] theorem State.mem_addToHL (s : State) (v : Word) : (s.addToHL v).mem = s.mem := rfl
@[simp] theorem State.portInputs_addToHL (s : State) (v : Word) : (s.addToHL v).portInputs = s.portInputs := rfl
@[simp] theorem State.portEvents_addToHL (s : State) (v : Word) : (s.addToHL v).portEvents = s.portEvents := rfl

/-! ### `setPSW`: the fields it leaves alone -/

@[simp] theorem State.params_setPSW (s : State) (v : Word) : (s.setPSW v).params = s.params := rfl
@[simp] theorem State.b_setPSW (s : State) (v : Word) : (s.setPSW v).b = s.b := rfl
@[simp] theorem State.c_setPSW (s : State) (v : Word) : (s.setPSW v).c = s.c := rfl
@[simp] theorem State.d_setPSW (s : State) (v : Word) : (s.setPSW v).d = s.d := rfl
@[simp] theorem State.e_setPSW (s : State) (v : Word) : (s.setPSW v).e = s.e := rfl
@[simp] theorem State.h_setPSW (s : State) (v : Word) : (s.setPSW v).h = s.h := rfl
@[simp] theorem State.l_setPSW (s : State) (v : Word) : (s.setPSW v).l = s.l := rfl
@[simp] theorem State.pc_setPSW (s : State) (v : Word) : (s.setPSW v).pc = s.pc := rfl
@[simp] theorem State.sp_setPSW (s : State) (v : Word) : (s.setPSW v).sp = s.sp := rfl
@[simp] theorem State.parity_setPSW (s : State) (v : Word) : (s.setPSW v).parity = s.parity := rfl
@[simp] theorem State.crashed_setPSW (s : State) (v : Word) : (s.setPSW v).crashed = s.crashed := rfl
@[simp] theorem State.instructionCounter_setPSW (s : State) (v : Word) : (s.setPSW v).instructionCounter = s.instructionCounter := rfl
@[simp] theorem State.interruptAlternate_setPSW (s : State) (v : Word) : (s.setPSW v).interruptAlternate = s.interruptAlternate := rfl
@[simp] theorem State.mem_setPSW (s : State) (v : Word) : (s.setPSW v).mem = s.mem := rfl
@[simp] theorem State.portInputs_setPSW (s : State) (v : Word) : (s.setPSW v).portInputs = s.portInputs := rfl
@[simp] theorem State.portEvents_setPSW (s : State) (v : Word) : (s.setPSW v).portEvents = s.portEvents := rfl

/-! ### `writeOperand`: the fields no operand form of it writes -/

@[simp] theorem State.params_writeOperand (s : State) (r : Operand8) (v : Byte) : (s.writeOperand r v).params = s.params := by cases r <;> rfl
@[simp] theorem State.pc_writeOperand (s : State) (r : Operand8) (v : Byte) : (s.writeOperand r v).pc = s.pc := by cases r <;> rfl
@[simp] theorem State.sp_writeOperand (s : State) (r : Operand8) (v : Byte) : (s.writeOperand r v).sp = s.sp := by cases r <;> rfl
@[simp] theorem State.zero_writeOperand (s : State) (r : Operand8) (v : Byte) : (s.writeOperand r v).zero = s.zero := by cases r <;> rfl
@[simp] theorem State.sign_writeOperand (s : State) (r : Operand8) (v : Byte) : (s.writeOperand r v).sign = s.sign := by cases r <;> rfl
@[simp] theorem State.halfCarry_writeOperand (s : State) (r : Operand8) (v : Byte) : (s.writeOperand r v).halfCarry = s.halfCarry := by cases r <;> rfl
@[simp] theorem State.carry_writeOperand (s : State) (r : Operand8) (v : Byte) : (s.writeOperand r v).carry = s.carry := by cases r <;> rfl
@[simp] theorem State.parity_writeOperand (s : State) (r : Operand8) (v : Byte) : (s.writeOperand r v).parity = s.parity := by cases r <;> rfl
@[simp] theorem State.interruptEnabled_writeOperand (s : State) (r : Operand8) (v : Byte) : (s.writeOperand r v).interruptEnabled = s.interruptEnabled := by cases r <;> rfl
@[simp] theorem State.crashed_writeOperand (s : State) (r : Operand8) (v : Byte) : (s.writeOperand r v).crashed = s.crashed := by cases r <;> rfl
@[simp] theorem State.instructionCounter_writeOperand (s : State) (r : Operand8) (v : Byte) : (s.writeOperand r v).instructionCounter = s.instructionCounter := by cases r <;> rfl
@[simp] theorem State.interruptAlternate_writeOperand (s : State) (r : Operand8) (v : Byte) : (s.writeOperand r v).interruptAlternate = s.interruptAlternate := by cases r <;> rfl
@[simp] theorem State.portInputs_writeOperand (s : State) (r : Operand8) (v : Byte) : (s.writeOperand r v).portInputs = s.portInputs := by cases r <;> rfl
@[simp] theorem State.portEvents_writeOperand (s : State) (r : Operand8) (v : Byte) : (s.writeOperand r v).portEvents = s.portEvents := by cases r <;> rfl

/-! ### `writePair`: the fields no operand form of it writes -/

@[simp] theorem State.params_writePair (s : State) (r : RegPair) (v : Word) : (s.writePair r v).params = s.params := by cases r <;> rfl
@[simp] theorem State.a_writePair (s : State) (r : RegPair) (v : Word) : (s.writePair r v).a = s.a := by cases r <;> rfl
@[simp] theorem State.pc_writePair (s : State) (r : RegPair) (v : Word) : (s.writePair r v).pc = s.pc := by cases r <;> rfl
@[simp] theorem State.zero_writePair (s : State) (r : RegPair) (v : Word) : (s.writePair r v).zero = s.zero := by cases r <;> rfl
@[simp] theorem State.sign_writePair (s : State) (r : RegPair) (v : Word) : (s.writePair r v).sign = s.sign := by cases r <;> rfl
@[simp] theorem State.halfCarry_writePair (s : State) (r : RegPair) (v : Word) : (s.writePair r v).halfCarry = s.halfCarry := by cases r <;> rfl
@[simp] theorem State.carry_writePair (s : State) (r : RegPair) (v : Word) : (s.writePair r v).carry = s.carry := by cases r <;> rfl
@[simp] theorem State.parity_writePair (s : State) (r : RegPair) (v : Word) : (s.writePair r v).parity = s.parity := by cases r <;> rfl
@[simp] theorem State.interruptEnabled_writePair (s : State) (r : RegPair) (v : Word) : (s.writePair r v).interruptEnabled = s.interruptEnabled := by cases r <;> rfl
@[simp] theorem State.crashed_writePair (s : State) (r : RegPair) (v : Word) : (s.writePair r v).crashed = s.crashed := by cases r <;> rfl
@[simp] theorem State.instructionCounter_writePair (s : State) (r : RegPair) (v : Word) : (s.writePair r v).instructionCounter = s.instructionCounter := by cases r <;> rfl
@[simp] theorem State.interruptAlternate_writePair (s : State) (r : RegPair) (v : Word) : (s.writePair r v).interruptAlternate = s.interruptAlternate := by cases r <;> rfl
@[simp] theorem State.mem_writePair (s : State) (r : RegPair) (v : Word) : (s.writePair r v).mem = s.mem := by cases r <;> rfl
@[simp] theorem State.portInputs_writePair (s : State) (r : RegPair) (v : Word) : (s.writePair r v).portInputs = s.portInputs := by cases r <;> rfl
@[simp] theorem State.portEvents_writePair (s : State) (r : RegPair) (v : Word) : (s.writePair r v).portEvents = s.portEvents := by cases r <;> rfl

/-! ### `writeStackPair`: the fields no operand form of it writes -/

@[simp] theorem State.params_writeStackPair (s : State) (r : StackPair) (v : Word) : (s.writeStackPair r v).params = s.params := by cases r <;> rfl
@[simp] theorem State.pc_writeStackPair (s : State) (r : StackPair) (v : Word) : (s.writeStackPair r v).pc = s.pc := by cases r <;> rfl
@[simp] theorem State.sp_writeStackPair (s : State) (r : StackPair) (v : Word) : (s.writeStackPair r v).sp = s.sp := by cases r <;> rfl
@[simp] theorem State.parity_writeStackPair (s : State) (r : StackPair) (v : Word) : (s.writeStackPair r v).parity = s.parity := by cases r <;> rfl
@[simp] theorem State.crashed_writeStackPair (s : State) (r : StackPair) (v : Word) : (s.writeStackPair r v).crashed = s.crashed := by cases r <;> rfl
@[simp] theorem State.instructionCounter_writeStackPair (s : State) (r : StackPair) (v : Word) : (s.writeStackPair r v).instructionCounter = s.instructionCounter := by cases r <;> rfl
@[simp] theorem State.interruptAlternate_writeStackPair (s : State) (r : StackPair) (v : Word) : (s.writeStackPair r v).interruptAlternate = s.interruptAlternate := by cases r <;> rfl
@[simp] theorem State.mem_writeStackPair (s : State) (r : StackPair) (v : Word) : (s.writeStackPair r v).mem = s.mem := by cases r <;> rfl
@[simp] theorem State.portInputs_writeStackPair (s : State) (r : StackPair) (v : Word) : (s.writeStackPair r v).portInputs = s.portInputs := by cases r <;> rfl
@[simp] theorem State.portEvents_writeStackPair (s : State) (r : StackPair) (v : Word) : (s.writeStackPair r v).portEvents = s.portEvents := by cases r <;> rfl

end Sys2Proof.Machine
end

