-- ==== Sys2Proof/Laws/Step.lean ====
section
/-! SUPPORT. What the fetch, an instruction's effect and a step can do, said once. -/

namespace Sys2Proof.Machine

/-! ### Fetch -/

/-- The fetch changes `PC` only. -/
theorem State.fetchInstr_state (s : State) : s.fetchInstr.2 = { s with pc := s.fetchInstr.2.pc } := by
  simp only [State.fetchInstr]
  split
  · split <;> rfl
  · rfl

@[simp] theorem State.fetchInstr_params (s : State) : s.fetchInstr.2.params = s.params := by rw [fetchInstr_state]
@[simp] theorem State.fetchInstr_parity (s : State) : s.fetchInstr.2.parity = s.parity := by rw [fetchInstr_state]
@[simp] theorem State.fetchInstr_crashed (s : State) : s.fetchInstr.2.crashed = s.crashed := by rw [fetchInstr_state]
@[simp] theorem State.fetchInstr_mem (s : State) : s.fetchInstr.2.mem = s.mem := by rw [fetchInstr_state]
@[simp] theorem State.fetchInstr_counter (s : State) :
    s.fetchInstr.2.instructionCounter = s.instructionCounter := by rw [fetchInstr_state]
@[simp] theorem State.fetchInstr_alternate (s : State) :
    s.fetchInstr.2.interruptAlternate = s.interruptAlternate := by rw [fetchInstr_state]

/-- A byte outside `IMPLEMENTED` is fetched as `invalid`, and `PC` stays at it. -/
theorem State.fetchInstr_of_not_implements (s : State) (h : s.params.implements (s.readByte s.pc) = false) :
    s.fetchInstr = (.invalid (s.readByte s.pc), s) := by
  simp [State.fetchInstr, h]

/-- The fetch of an implemented byte: the instruction of the three bytes at `PC`, with `PC` past its length. -/
theorem State.fetchInstr_of_implements (s : State) (h : s.params.implements (s.readByte s.pc) = true) :
    s.fetchInstr =
      (decodeOpcode (s.readByte s.pc) (s.readByte (s.pc + 1)) (s.readByte (s.pc + 2)),
        { s with pc := s.pc + BitVec.ofNat 16 (opcodeLength (s.readByte s.pc)) }) := by
  simp only [State.fetchInstr, h, if_true]
  rcases opcodeLength_cases (s.readByte s.pc) with hl | hl | hl
  · simp only [hl, decodeOpcode_of_length_one _ _ hl, State.fetchByte]
    rfl
  · simp only [hl, decodeOpcode_of_length_two _ _ hl, State.fetchByte, BitVec.add_assoc]
    rfl
  · simp only [hl, State.fetchByte, State.fetchWord, State.readWord, Memory.readWord, loByte_mkWord, hiByte_mkWord,
      BitVec.add_assoc]
    rfl

/-- An implemented byte is fetched as an instruction that is not `invalid`. -/
theorem State.fetchInstr_isInvalid (s : State) (h : s.params.implements (s.readByte s.pc) = true) :
    isInvalid s.fetchInstr.1 = false := by
  have hu : undefinedOpcodes.contains (s.readByte s.pc) = false := by
    simp only [Params.implements, Bool.and_eq_true, Bool.not_eq_true'] at h
    exact h.1
  simp only [State.fetchInstr, h, if_true]
  split <;> simp only [decodeOpcode_isInvalid, hu]

/-! ### The stack -/

/-- A pop right after a push gives the pushed value. -/
@[simp] theorem State.popValue_push16 (s : State) (v : Word) : (s.push16 v).popValue = v := by
  show (s.mem.writeWord (s.sp - 2) v).readWord (s.sp - 2) = v
  simp

/-- A pop right after a push restores everything but the stored bytes. -/
theorem State.popped_push16 (s : State) (v : Word) : (s.push16 v).popped = { s with mem := (s.push16 v).mem } := by
  have h : s.sp - 2 + 2 = s.sp := by bv_omega
  simp only [State.popped, State.push16, h]

/-! ### The effect of an instruction -/

/-- What no instruction writes: the parameters, `parity`, the scheduler's fields. -/
theorem exec_keeps {i : Instr} {s t : State} (h : exec i s = .next t) :
    t.params = s.params ∧ t.parity = s.parity ∧ t.instructionCounter = s.instructionCounter ∧
      t.interruptAlternate = s.interruptAlternate := by
  cases i <;> cases h <;>
    simp [State.jumpIf, State.callIf, State.retIf, apply_ite State.params, apply_ite State.parity,
      apply_ite State.instructionCounter, apply_ite State.interruptAlternate]

/-- Only `invalid` sets `crashed`. -/
theorem exec_crashed {i : Instr} {s t : State} (h : exec i s = .next t) : t.crashed = (isInvalid i || s.crashed) := by
  cases i <;> cases h <;>
    simp [isInvalid, State.jumpIf, State.callIf, State.retIf, apply_ite State.crashed]

theorem State.wf_writeOperand {s : State} (r : Operand8) (v : Byte) (h : s.mem.wf = true) :
    (s.writeOperand r v).mem.wf = true := by
  cases r <;> first | exact h | exact Memory.wf_writeByte _ _ h

/-- Every instruction keeps the canonical form of memory. -/
theorem exec_mem_wf {i : Instr} {s t : State} (h : exec i s = .next t) (hm : s.mem.wf = true) : t.mem.wf = true := by
  cases i <;> cases h <;>
    first
      | exact hm
      | exact Memory.wf_writeByte _ _ hm
      | exact Memory.wf_writeWord _ _ hm
      | exact State.wf_writeOperand _ _ hm
      | (simp only [State.mem_writePair, State.mem_writeStackPair]; exact hm)
      | (simp only [State.callIf]; split <;> first | exact hm | exact Memory.wf_writeWord _ _ hm)
      | (simp only [State.jumpIf, State.retIf]; split <;> exact hm)

/-- A conditional jump writes `PC` only: the target where the condition holds. -/
theorem State.jumpIf_eq (s : State) (cond : Cond) (t : Word) :
    s.jumpIf cond t = { s with pc := if s.holds cond then t else s.pc } := by
  rw [State.jumpIf]
  split <;> rfl

/-! ### A step -/

/-- Every instruction answers a next state: `effect i s`. -/
def effect (i : Instr) (s : State) : State :=
  match exec i s with
  | .next t => t
  | .fault _ => s
  | .refused _ => s

theorem exec_eq_effect (i : Instr) (s : State) : exec i s = .next (effect i s) := by cases i <;> rfl

/-- A crashed core's step. -/
theorem step_of_crashed {s : State} (h : s.crashed = true) : step s = .next s := by simp [step, h]

/-- The crash. -/
theorem step_of_not_implements {s : State} (hc : s.crashed = false)
    (hi : s.params.implements (s.readByte s.pc) = false) : step s = .next s.crash := by
  simp [step, hc, State.fetchInstr_of_not_implements s hi, exec, execInvalid, finish, State.finishIteration]

/-- An executed instruction and the scheduler after it. -/
theorem step_of_implements {s : State} (hc : s.crashed = false)
    (hi : s.params.implements (s.readByte s.pc) = true) :
    step s = .next (effect s.fetchInstr.1 s.fetchInstr.2).schedule ∧
      (effect s.fetchInstr.1 s.fetchInstr.2).crashed = false := by
  have hcu : (effect s.fetchInstr.1 s.fetchInstr.2).crashed = false := by
    rw [exec_crashed (exec_eq_effect _ _), State.fetchInstr_isInvalid s hi, State.fetchInstr_crashed, hc]; rfl
  refine ⟨?_, hcu⟩
  rw [step, if_neg (by simp [hc]), exec_eq_effect, finish, State.finishIteration, if_neg (by simp [hcu])]

/-- The three things an iteration can be (spec/60_exceptions.md R138): the no-op of a crashed core, the crash, or an
executed instruction followed by the scheduler. -/
theorem step_cases {s t : State} (h : step s = .next t) :
    (s.crashed = true ∧ t = s) ∨
    (s.crashed = false ∧ s.params.implements (s.readByte s.pc) = false ∧ t = s.crash) ∨
    (s.crashed = false ∧ s.params.implements (s.readByte s.pc) = true ∧
      ∃ u, exec s.fetchInstr.1 s.fetchInstr.2 = .next u ∧ u.crashed = false ∧ t = u.schedule) := by
  cases hc : s.crashed with
  | true => exact .inl ⟨rfl, by simpa [step_of_crashed hc] using h.symm⟩
  | false =>
    cases hi : s.params.implements (s.readByte s.pc) with
    | false => exact .inr (.inl ⟨rfl, rfl, by simpa [step_of_not_implements hc hi] using h.symm⟩)
    | true =>
      obtain ⟨hs, hcu⟩ := step_of_implements hc hi
      exact .inr (.inr ⟨rfl, rfl, _, exec_eq_effect _ _, hcu, by simpa [hs] using h.symm⟩)

/-- `n + 1` steps are one step and then `n`. -/
theorem run_succ {s t : State} (n : Nat) (h : step s = .next t) :
    Host.Core.run Sys2Proof.core (n + 1) s = Host.Core.run Sys2Proof.core n t := by
  have h' : Sys2Proof.core.step s = .next t := h
  simp only [Host.Core.run, h']

/-- Below the check the scheduler only counts. -/
theorem State.schedule_of_ne {s : State} (h : s.instructionCounter + 1 ≠ s.params.quota / 2) :
    s.schedule = { s with instructionCounter := s.instructionCounter + 1 } := by
  rw [State.schedule, State.checkPeriod, if_neg h]

/-- A check with interrupts disabled only restarts the count. -/
theorem State.schedule_of_disabled {s : State} (h : s.instructionCounter + 1 = s.params.quota / 2)
    (hi : s.interruptEnabled = false) : s.schedule = { s with instructionCounter := 0 } := by
  rw [State.schedule, State.checkPeriod, if_pos h, if_neg (by simp [hi])]

/-- A check with interrupts enabled injects and restarts the count. -/
theorem State.schedule_of_enabled {s : State} (h : s.instructionCounter + 1 = s.params.quota / 2)
    (hi : s.interruptEnabled = true) : s.schedule = { s.inject with instructionCounter := 0 } := by
  rw [State.schedule, State.checkPeriod, if_pos h, if_pos hi]

/-- What the scheduler's count and check leave alone. -/
theorem State.schedule_keeps (s : State) :
    s.schedule.params = s.params ∧ s.schedule.parity = s.parity ∧ s.schedule.crashed = s.crashed := by
  simp only [State.schedule]
  split
  · split <;> simp
  · simp

/-- The scheduler keeps the canonical form of memory. -/
theorem State.schedule_mem_wf {s : State} (h : s.mem.wf = true) : s.schedule.mem.wf = true := by
  simp only [State.schedule]
  split
  · split
    · exact Memory.wf_writeWord _ _ h
    · exact h
  · exact h

/-- The counter after the count and check. -/
theorem State.schedule_counter (s : State) :
    s.schedule.instructionCounter =
      if s.instructionCounter + 1 = s.checkPeriod then 0 else s.instructionCounter + 1 := by
  simp only [State.schedule]
  split <;> rfl

end Sys2Proof.Machine
end

