-- ==== Sys2Proof/Machine/Assembler.lean ====
section
/-! DEFINITION. The assembler text of an instruction (spec/30_encoding.md R69): "the mnemonic, a space, then
comma-separated operands, destination first".  No step reads it. -/

namespace Sys2Proof

/-- One hexadecimal digit. -/
def digitText (n : Nat) : String :=
  String.singleton (Nat.digitChar (n % 16)).toUpper

/-- The digits of a number, the given count of them. -/
def digitsText : Nat → Nat → String
  | 0, _ => ""
  | k + 1, n => digitsText k (n / 16) ++ digitText n

/-- "An immediate is a number, written in this spec as `0x..` hexadecimal". -/
def hexText (digits n : Nat) : String := "0x" ++ digitsText digits n

/-- "A register operand is `B C D E H L M A`". -/
def Operand8.text : Operand8 → String
  | .b => "B" | .c => "C" | .d => "D" | .e => "E" | .h => "H" | .l => "L" | .m => "M" | .a => "A"

/-- "A pair operand is `B` (BC), `D` (DE), `H` (HL), `SP`". -/
def RegPair.text : RegPair → String
  | .bc => "B" | .de => "D" | .hl => "H" | .sp => "SP"

/-- "... or `PSW` for PUSH/POP". -/
def StackPair.text : StackPair → String
  | .bc => "B" | .de => "D" | .hl => "H" | .psw => "PSW"

def IndirectPair.text : IndirectPair → String
  | .bc => "B" | .de => "D"

/-- The text of an instruction; an undefined byte is written as the table's column
`asm` writes it. -/
def Instr.text : Instr → String
  | .nop => "NOP"
  | .lxi rp d16 => "LXI " ++ rp.text ++ "," ++ hexText 4 d16.toNat
  | .stax rp => "STAX " ++ rp.text
  | .inx rp => "INX " ++ rp.text
  | .inr r => "INR " ++ r.text
  | .dcr r => "DCR " ++ r.text
  | .mvi r d8 => "MVI " ++ r.text ++ "," ++ hexText 2 d8.toNat
  | .rlc => "RLC"
  | .invalid op => "(invalid " ++ hexText 2 op.toNat ++ ")"
  | .dad rp => "DAD " ++ rp.text
  | .ldax rp => "LDAX " ++ rp.text
  | .dcx rp => "DCX " ++ rp.text
  | .rrc => "RRC"
  | .ral => "RAL"
  | .rar => "RAR"
  | .shld a16 => "SHLD " ++ hexText 4 a16.toNat
  | .daa => "DAA"
  | .lhld a16 => "LHLD " ++ hexText 4 a16.toNat
  | .cma => "CMA"
  | .sta a16 => "STA " ++ hexText 4 a16.toNat
  | .stc => "STC"
  | .lda a16 => "LDA " ++ hexText 4 a16.toNat
  | .cmc => "CMC"
  | .mov dst src => "MOV " ++ dst.text ++ "," ++ src.text
  | .add r => "ADD " ++ r.text
  | .adc r => "ADC " ++ r.text
  | .sub r => "SUB " ++ r.text
  | .sbb r => "SBB " ++ r.text
  | .ana r => "ANA " ++ r.text
  | .xra r => "XRA " ++ r.text
  | .ora r => "ORA " ++ r.text
  | .cmp r => "CMP " ++ r.text
  | .rnz => "RNZ"
  | .pop rp => "POP " ++ rp.text
  | .jnz a16 => "JNZ " ++ hexText 4 a16.toNat
  | .jmp a16 => "JMP " ++ hexText 4 a16.toNat
  | .cnz a16 => "CNZ " ++ hexText 4 a16.toNat
  | .push rp => "PUSH " ++ rp.text
  | .adi d8 => "ADI " ++ hexText 2 d8.toNat
  | .rst n => "RST " ++ digitText n.toNat
  | .rz => "RZ"
  | .ret => "RET"
  | .jz a16 => "JZ " ++ hexText 4 a16.toNat
  | .cz a16 => "CZ " ++ hexText 4 a16.toNat
  | .call a16 => "CALL " ++ hexText 4 a16.toNat
  | .aci d8 => "ACI " ++ hexText 2 d8.toNat
  | .rnc => "RNC"
  | .jnc a16 => "JNC " ++ hexText 4 a16.toNat
  | .out port => "OUT " ++ hexText 2 port.toNat
  | .cnc a16 => "CNC " ++ hexText 4 a16.toNat
  | .sui d8 => "SUI " ++ hexText 2 d8.toNat
  | .rc => "RC"
  | .jc a16 => "JC " ++ hexText 4 a16.toNat
  | .inp port => "IN " ++ hexText 2 port.toNat
  | .cc a16 => "CC " ++ hexText 4 a16.toNat
  | .sbi d8 => "SBI " ++ hexText 2 d8.toNat
  | .xthl => "XTHL"
  | .ani d8 => "ANI " ++ hexText 2 d8.toNat
  | .pchl => "PCHL"
  | .xchg => "XCHG"
  | .xri d8 => "XRI " ++ hexText 2 d8.toNat
  | .jp a16 => "JP " ++ hexText 4 a16.toNat
  | .di => "DI"
  | .ori d8 => "ORI " ++ hexText 2 d8.toNat
  | .sphl => "SPHL"
  | .jm a16 => "JM " ++ hexText 4 a16.toNat
  | .ei => "EI"
  | .cpi d8 => "CPI " ++ hexText 2 d8.toNat

end Sys2Proof
end

