-- ==== Sys2Proof/Tests/Slice0.lean ====
section
/-! SUPPORT. The tests of the model: ill-formed instructions, words written out from the encodings, one step per vector
of spec/95_test_vectors.md, and a witness for the hypotheses of every statement that has any. -/

namespace Sys2Proof.Tests

open Sys2Proof Sys2Proof.Machine

/-- The state `s` with code at an address and `PC` there. -/
def codeAt (addr : Word) (code : List Byte) (s : State) : State := { s with pc := addr }.storeBytes addr code

/-- The state one step after `codeAt`. -/
def afterStep (addr : Word) (code : List Byte) (s : State) : State :=
  match step (codeAt addr code s) with
  | .next t => t
  | .fault _ => s
  | .refused _ => s

/-- The answer is the next state `t`, as a test that evaluates. -/
def answers (r : Result) (t : State) : Bool :=
  match r with
  | .next u => decide (u = t)
  | .fault _ => false
  | .refused _ => false

theorem next_of_answers {r : Result} {t : State} (h : answers r t = true) : r = .next t := by
  cases r with
  | next u => rw [of_decide_eq_true (show decide (u = t) = true from h)]
  | fault _ => cases h
  | refused _ => cases h

/-! ### Well-formedness -/

/-- `01 110 110` is no MOV (spec/30_encoding.md section 5). -/
theorem test_mov_m_m_is_ill_formed : ¬WellFormed (.mov .m .m) := by decide

/-- 0x00 is NOP, not an undefined byte (R66). -/
theorem test_invalid_of_a_defined_byte_is_ill_formed : ¬WellFormed (.invalid 0x00) := by decide

theorem test_well_formed_instructions :
    WellFormed (.mov .m .a) ∧ WellFormed (.mov .a .m) ∧ WellFormed (.invalid 0x76) ∧ WellFormed (.rst 7) := by decide

/-! ### Decoding: words from the `Encoding:` lines -/

/-- spec/41_control_transfer.md. -/
theorem test_decode_control_transfer :
    DecodesTo [0b11000011, 0x34, 0x12] (.jmp 0x1234) ∧ DecodesTo [0b11000010, 0x34, 0x12] (.jnz 0x1234) ∧
    DecodesTo [0b11001010, 0x34, 0x12] (.jz 0x1234) ∧ DecodesTo [0b11010010, 0x34, 0x12] (.jnc 0x1234) ∧
    DecodesTo [0b11011010, 0x34, 0x12] (.jc 0x1234) ∧ DecodesTo [0b11110010, 0x34, 0x12] (.jp 0x1234) ∧
    DecodesTo [0b11111010, 0x34, 0x12] (.jm 0x1234) ∧ DecodesTo [0b11001101, 0x34, 0x12] (.call 0x1234) ∧
    DecodesTo [0b11000100, 0x34, 0x12] (.cnz 0x1234) ∧ DecodesTo [0b11001100, 0x34, 0x12] (.cz 0x1234) ∧
    DecodesTo [0b11010100, 0x34, 0x12] (.cnc 0x1234) ∧ DecodesTo [0b11011100, 0x34, 0x12] (.cc 0x1234) := by
  exact ⟨rfl, rfl, rfl, rfl, rfl, rfl, rfl, rfl, rfl, rfl, rfl, rfl⟩

/-- spec/41_control_transfer.md. -/
theorem test_decode_returns_and_restart :
    DecodesTo [0b11001001] .ret ∧ DecodesTo [0b11000000] .rnz ∧ DecodesTo [0b11001000] .rz ∧
    DecodesTo [0b11010000] .rnc ∧ DecodesTo [0b11011000] .rc ∧ DecodesTo [0b11000111] (.rst 0) ∧
    DecodesTo [0b11101111] (.rst 5) ∧ DecodesTo [0b11101001] .pchl := by
  decide

/-- spec/42_stack.md. -/
theorem test_decode_stack :
    DecodesTo [0b11000101] (.push .bc) ∧ DecodesTo [0b11110101] (.push .psw) ∧ DecodesTo [0b11010001] (.pop .de) ∧
    DecodesTo [0b11100001] (.pop .hl) ∧ DecodesTo [0b11101011] .xchg ∧ DecodesTo [0b11100011] .xthl ∧
    DecodesTo [0b11111001] .sphl := by
  decide

/-- spec/43_arith_logic.md section 2. -/
theorem test_decode_alu_registers :
    DecodesTo [0b10000000] (.add .b) ∧ DecodesTo [0b10001001] (.adc .c) ∧ DecodesTo [0b10010010] (.sub .d) ∧
    DecodesTo [0b10011011] (.sbb .e) ∧ DecodesTo [0b10100100] (.ana .h) ∧ DecodesTo [0b10101101] (.xra .l) ∧
    DecodesTo [0b10110110] (.ora .m) ∧ DecodesTo [0b10111111] (.cmp .a) := by
  decide

/-- spec/43_arith_logic.md section 3. -/
theorem test_decode_alu_immediates :
    DecodesTo [0b11000110, 0x42] (.adi 0x42) ∧ DecodesTo [0b11001110, 0x42] (.aci 0x42) ∧
    DecodesTo [0b11010110, 0x42] (.sui 0x42) ∧ DecodesTo [0b11011110, 0x42] (.sbi 0x42) ∧
    DecodesTo [0b11100110, 0x42] (.ani 0x42) ∧ DecodesTo [0b11101110, 0x42] (.xri 0x42) ∧
    DecodesTo [0b11110110, 0x42] (.ori 0x42) ∧ DecodesTo [0b11111110, 0x42] (.cpi 0x42) := by
  decide

/-- spec/43_arith_logic.md sections 4 to 7. -/
theorem test_decode_one_operand_and_flags :
    DecodesTo [0b00110100] (.inr .m) ∧ DecodesTo [0b00111101] (.dcr .a) ∧ DecodesTo [0b00100111] .daa ∧
    DecodesTo [0b00101111] .cma ∧ DecodesTo [0b00000111] .rlc ∧ DecodesTo [0b00001111] .rrc ∧
    DecodesTo [0b00010111] .ral ∧ DecodesTo [0b00011111] .rar ∧ DecodesTo [0b00110111] .stc ∧
    DecodesTo [0b00111111] .cmc ∧ DecodesTo [0b11110011] .di ∧ DecodesTo [0b11111011] .ei := by
  exact ⟨rfl, rfl, rfl, rfl, rfl, rfl, rfl, rfl, rfl, rfl, rfl, rfl⟩

/-- spec/44_io.md. -/
theorem test_decode_ports : DecodesTo [0b11010011, 0x05] (.out 0x05) ∧ DecodesTo [0b11011011, 0x05] (.inp 0x05) := by
  decide

/-- spec/45_data_movement.md. -/
theorem test_decode_data_movement :
    DecodesTo [0b00000000] .nop ∧ DecodesTo [0b01111110] (.mov .a .m) ∧ DecodesTo [0b00001110, 0x42] (.mvi .c 0x42) ∧
    DecodesTo [0b00110001, 0x34, 0x12] (.lxi .sp 0x1234) ∧ DecodesTo [0b00111010, 0x34, 0x12] (.lda 0x1234) ∧
    DecodesTo [0b00110010, 0x34, 0x12] (.sta 0x1234) ∧ DecodesTo [0b00101010, 0x34, 0x12] (.lhld 0x1234) ∧
    DecodesTo [0b00100010, 0x34, 0x12] (.shld 0x1234) ∧ DecodesTo [0b00011010] (.ldax .de) ∧
    DecodesTo [0b00000010] (.stax .bc) ∧ DecodesTo [0b00110011] (.inx .sp) ∧ DecodesTo [0b00101011] (.dcx .hl) ∧
    DecodesTo [0b00011001] (.dad .de) := by
  exact ⟨rfl, rfl, rfl, rfl, rfl, rfl, rfl, rfl, rfl, rfl, rfl, rfl, rfl⟩

/-- Undefined bytes of R66, one of each kind: HLT, an alias, a parity and a sign condition; and what is no instruction. -/
theorem test_decode_undefined_and_short :
    DecodesTo [0b01110110] (.invalid 0x76) ∧ DecodesTo [0b11001011] (.invalid 0xCB) ∧
    DecodesTo [0b11101010] (.invalid 0xEA) ∧ DecodesTo [0b11111100] (.invalid 0xFC) ∧
    decode [0xC3, 0x34] = .error (.missingImmediate 0xC3) ∧ decode [] = .error .noOpcode := by
  decide

/-- A table word shorter than its instruction has operand bytes of zero. -/
theorem test_table_words :
    decodeTableWord 8 0xC3 = some (.jmp 0x0000) ∧ decodeTableWord 24 0x1234C3 = some (.jmp 0x1234) ∧
    (State.reset.withFetchWord 24 0x1234C3).fetchInstr.1 = .jmp 0x1234 := by
  decide

/-- The examples of R69. -/
theorem test_assembler_text :
    (Instr.mov .b .c).text = "MOV B,C" ∧ (Instr.mvi .a 0x3F).text = "MVI A,0x3F" ∧
    (Instr.lxi .hl 0x2400).text = "LXI H,0x2400" ∧ (Instr.rst 1).text = "RST 1" ∧ (Instr.push .psw).text = "PUSH PSW" := by
  decide

/-! ### One step: vectors of spec/95_test_vectors.md -/

/-- V41.2 (rule R72). -/
theorem test_jmp_v41_2 :
    let t := afterStep 0xFFFE [0xC3, 0x00] (State.reset.writeByte 0x0000 0x20)
    t.pc = 0x2000 ∧ t.instructionCounter = 1 := by
  decide

/-- V41.4 (rule R73). -/
theorem test_jz_v41_4 :
    let t := afterStep 0x0100 [0xCA, 0x00, 0x20] { State.reset with zero := true }
    t.pc = 0x2000 ∧ t.instructionCounter = 1 := by
  decide

/-- V41.5 (rule R73). -/
theorem test_jnz_v41_5 :
    let t := afterStep 0x0100 [0xC2, 0x00, 0x20] { State.reset with zero := false }
    t.pc = 0x2000 ∧ t.instructionCounter = 1 := by
  decide

/-- V41.6 (rule R73). -/
theorem test_jnc_v41_6 :
    let t := afterStep 0x0100 [0xD2, 0x00, 0x20] { State.reset with carry := true }
    t.pc = 0x0103 ∧ t.instructionCounter = 1 := by
  decide

/-- V41.7 (rule R73). -/
theorem test_jc_v41_7 :
    let t := afterStep 0x0100 [0xDA, 0x00, 0x20] { State.reset with carry := true }
    t.pc = 0x2000 ∧ t.instructionCounter = 1 := by
  decide

/-- V41.8 (rule R73). -/
theorem test_jp_v41_8 :
    let t := afterStep 0x0100 [0xF2, 0x00, 0x20] { State.reset with sign := false }
    t.pc = 0x2000 ∧ t.instructionCounter = 1 := by
  decide

/-- V41.10 (rule R73). -/
theorem test_jm_v41_10 :
    let t := afterStep 0x0100 [0xFA, 0x00, 0x20] { State.reset with sign := true }
    t.pc = 0x2000 ∧ t.instructionCounter = 1 := by
  decide

/-- V41.13 (rule R74). -/
theorem test_call_v41_13 :
    let t := afterStep 0x0100 [0xCD, 0x00, 0x30] { State.reset with sp := 0x0001 }
    t.sp = 0xFFFF ∧ t.readByte 0x0000 = 0x01 ∧ t.readByte 0xFFFF = 0x03 := by
  decide

/-- V41.14 (rule R75). -/
theorem test_cnz_v41_14 :
    let t := afterStep 0x0100 [0xC4, 0x00, 0x30] { State.reset with zero := true, sp := 0x2400 }
    t.pc = 0x0103 ∧ t.instructionCounter = 1 := by
  decide

/-- V41.15 (rule R75). -/
theorem test_cz_v41_15 :
    let t := afterStep 0x0100 [0xCC, 0x00, 0x30] { State.reset with zero := true, sp := 0x2400 }
    t.sp = 0x23FE ∧ t.readByte 0x23FE = 0x03 ∧ t.readByte 0x23FF = 0x01 := by
  decide

/-- V41.16 (rule R75). -/
theorem test_cnc_v41_16 :
    let t := afterStep 0x0100 [0xD4, 0x00, 0x30] { State.reset with carry := false, sp := 0x2400 }
    t.sp = 0x23FE ∧ t.readByte 0x23FE = 0x03 ∧ t.readByte 0x23FF = 0x01 := by
  decide

/-- V41.17 (rule R75). -/
theorem test_cc_v41_17 :
    let t := afterStep 0x0100 [0xDC, 0x00, 0x30] { State.reset with carry := false, sp := 0x2400 }
    t.pc = 0x0103 ∧ t.instructionCounter = 1 := by
  decide

/-- V41.19 (rule R76). -/
theorem test_ret_v41_19 :
    let t := afterStep 0x0100 [0xC9]
        (({ State.reset with sp := 0xFFFF }.writeByte 0x0000 0x12).writeByte 0xFFFF 0x34)
    t.sp = 0x0001 ∧ t.pc = 0x1234 ∧ t.instructionCounter = 1 := by
  decide

/-- V41.20 (rule R77). -/
theorem test_rnz_v41_20 :
    let t := afterStep 0x0100 [0xC0]
        (({ State.reset with zero := false, sp := 0x23FE }.writeByte 0x23FE 0x03).writeByte 0x23FF 0x01)
    t.sp = 0x2400 ∧ t.pc = 0x0103 ∧ t.instructionCounter = 1 := by
  decide

/-- V41.21 (rule R77). -/
theorem test_rz_v41_21 :
    let t := afterStep 0x0100 [0xC8]
        (({ State.reset with zero := false, sp := 0x23FE }.writeByte 0x23FE 0x03).writeByte 0x23FF 0x01)
    t.pc = 0x0101 ∧ t.instructionCounter = 1 := by
  decide

/-- V41.22 (rule R77). -/
theorem test_rnc_v41_22 :
    let t := afterStep 0x0100 [0xD0]
        (({ State.reset with carry := true, sp := 0x23FE }.writeByte 0x23FE 0x03).writeByte 0x23FF 0x01)
    t.pc = 0x0101 ∧ t.instructionCounter = 1 := by
  decide

/-- V41.23 (rule R77). -/
theorem test_rc_v41_23 :
    let t := afterStep 0x0100 [0xD8]
        (({ State.reset with carry := true, sp := 0x23FE }.writeByte 0x23FE 0x03).writeByte 0x23FF 0x01)
    t.sp = 0x2400 ∧ t.pc = 0x0103 ∧ t.instructionCounter = 1 := by
  decide

/-- V41.26 (rule R78). -/
theorem test_rst_v41_26 :
    let t := afterStep 0x0100 [0xD7] { State.reset with sp := 0x2400, interruptEnabled := true }
    t.sp = 0x23FE ∧ t.readByte 0x23FE = 0x01 ∧ t.readByte 0x23FF = 0x01 := by
  decide

/-- V41.27 (rule R78). -/
theorem test_rst_v41_27 :
    let t := afterStep 0x0100 [0xFF] { State.reset with sp := 0x2400 }
    t.sp = 0x23FE ∧ t.readByte 0x23FE = 0x01 ∧ t.readByte 0x23FF = 0x01 := by
  decide

/-- V41.28 (rule R79). -/
theorem test_pchl_v41_28 :
    let t := afterStep 0x0100 [0xE9] { State.reset with h := 0x12, l := 0x34 }
    t.pc = 0x1234 ∧ t.instructionCounter = 1 := by
  decide

/-- V42.3 (rule R83). -/
theorem test_push_v42_3 :
    let t := afterStep 0x0100 [0xE5] { State.reset with h := 0xAB, l := 0xCD, sp := 0x0001 }
    t.sp = 0xFFFF ∧ t.readByte 0x0000 = 0xAB ∧ t.readByte 0xFFFF = 0xCD := by
  decide

/-- V42.4 (rule R84). -/
theorem test_push_v42_4 :
    let t := afterStep 0x0100 [0xF5]
        { State.reset with a := 0x55, sign := true, interruptEnabled := true, carry := true, sp := 0x2400 }
    t.sp = 0x23FE ∧ t.readByte 0x23FE = 0xA1 ∧ t.readByte 0x23FF = 0x55 := by
  decide

/-- V42.8 (rule R85). -/
theorem test_pop_v42_8 :
    let t := afterStep 0x0200 [0xE1]
        (({ State.reset with sp := 0xFFFF }.writeByte 0x0000 0x12).writeByte 0xFFFF 0x34)
    t.h = 0x12 ∧ t.l = 0x34 ∧ t.sp = 0x0001 := by
  decide

/-- V42.11 (rule R86). -/
theorem test_pop_v42_11 :
    let t := afterStep 0x0100 [0xF1]
        (({ State.reset with sp := 0x23FE }.writeByte 0x23FE 0xFF).writeByte 0x23FF 0x00)
    t.sp = 0x2400 ∧ t.zero = true ∧ t.sign = true := by
  decide

/-- V42.12 (rule R87). -/
theorem test_xchg_v42_12 :
    let t := afterStep 0x0100 [0xEB] { State.reset with d := 0x11, e := 0x11, h := 0x22, l := 0x22 }
    t.d = 0x22 ∧ t.e = 0x22 ∧ t.h = 0x11 := by
  decide

/-- V42.14 (rule R88). -/
theorem test_xthl_v42_14 :
    let t := afterStep 0x0100 [0xE3]
        (({ State.reset with sp := 0xFFFF, h := 0xAB, l := 0xCD }.writeByte 0x0000 0x12).writeByte 0xFFFF 0x34)
    t.h = 0x12 ∧ t.l = 0x34 ∧ t.readByte 0x0000 = 0xAB := by
  decide

/-- V42.15 (rule R89). -/
theorem test_sphl_v42_15 :
    let t := afterStep 0x0100 [0xF9] { State.reset with h := 0x24, l := 0x00 }
    t.sp = 0x2400 ∧ t.pc = 0x0101 ∧ t.instructionCounter = 1 := by
  decide

/-- V43.4 (rule R94). -/
theorem test_add_v43_4 :
    let t := afterStep 0x0100 [0x87] { State.reset with a := 0x88 }
    t.a = 0x10 ∧ t.halfCarry = true ∧ t.carry = true := by
  decide

/-- V43.5 (rule R94). -/
theorem test_add_v43_5 :
    let t := afterStep 0x0100 [0x86]
        ({ State.reset with a := 0x01, h := 0x30, l := 0x00 }.writeByte 0x3000 0x0F)
    t.a = 0x10 ∧ t.halfCarry = true ∧ t.pc = 0x0101 := by
  decide

/-- V43.7 (rule R95). -/
theorem test_adc_v43_7 :
    let t := afterStep 0x0100 [0x89] { State.reset with a := 0x3D, c := 0x42, carry := true }
    t.a = 0x80 ∧ t.sign = true ∧ t.halfCarry = true := by
  decide

/-- V43.9 (rule R95). -/
theorem test_adc_v43_9 :
    let t := afterStep 0x0100 [0x88] { State.reset with a := 0xFF, b := 0x00, carry := true }
    t.a = 0x00 ∧ t.zero = true ∧ t.halfCarry = true := by
  decide

/-- V43.12 (rule R96). -/
theorem test_sub_v43_12 :
    let t := afterStep 0x0100 [0x97] { State.reset with a := 0x88, carry := true }
    t.a = 0x00 ∧ t.zero = true ∧ t.carry = false := by
  decide

/-- V43.13 (rule R96). -/
theorem test_sub_v43_13 :
    let t := afterStep 0x0100 [0x94] { State.reset with a := 0x10, h := 0x01 }
    t.a = 0x0F ∧ t.halfCarry = true ∧ t.pc = 0x0101 := by
  decide

/-- V43.16 (rule R97). -/
theorem test_sbb_v43_16 :
    let t := afterStep 0x0100 [0x9D]
        { State.reset with
          params := { defaultParams with sbbZeroOperandBorrow := false }
          a := 0x00, l := 0x00, carry := true }
    t.a = 0xFF ∧ t.sign = true ∧ t.halfCarry = true := by
  decide

/-- V43.18 (rule R97). -/
theorem test_sbb_v43_18 :
    let t := afterStep 0x0100 [0x98] { State.reset with a := 0x80, b := 0xFF, carry := true }
    t.sign = true ∧ t.halfCarry = true ∧ t.pc = 0x0101 := by
  decide

/-- V43.19 (rule R98). -/
theorem test_ana_v43_19 :
    let t := afterStep 0x0100 [0xA1] { State.reset with a := 0xFC, c := 0x0F, carry := true, halfCarry := true }
    t.a = 0x0C ∧ t.halfCarry = false ∧ t.carry = false := by
  decide

/-- V43.22 (rule R99). -/
theorem test_xra_v43_22 :
    let t := afterStep 0x0100 [0xAE]
        ({ State.reset with a := 0x0F, h := 0x30, l := 0x00 }.writeByte 0x3000 0xF0)
    t.a = 0xFF ∧ t.sign = true ∧ t.pc = 0x0101 := by
  decide

/-- V43.24 (rule R100). -/
theorem test_ora_v43_24 :
    let t := afterStep 0x0100 [0xB7] { State.reset with a := 0x00, carry := true, halfCarry := true }
    t.zero = true ∧ t.halfCarry = false ∧ t.carry = false := by
  decide

/-- V43.26 (rule R101). -/
theorem test_cmp_v43_26 :
    let t := afterStep 0x0100 [0xBB] { State.reset with a := 0x02, e := 0x05 }
    t.sign = true ∧ t.halfCarry = true ∧ t.carry = true := by
  decide

/-- V43.28 (rule R101). -/
theorem test_cmp_v43_28 :
    let t := afterStep 0x0100 [0xBB] { State.reset with a := 0x00, e := 0x00, carry := true }
    t.zero = true ∧ t.carry = false ∧ t.pc = 0x0101 := by
  decide

/-- V43.29 (rule R102). -/
theorem test_adi_v43_29 :
    let t := afterStep 0x0100 [0xC6, 0x42] { State.reset with a := 0x14 }
    t.a = 0x56 ∧ t.pc = 0x0102 ∧ t.instructionCounter = 1 := by
  decide

/-- V43.31 (rule R103). -/
theorem test_aci_v43_31 :
    let t := afterStep 0x0100 [0xCE, 0xBE] { State.reset with a := 0x56, carry := true }
    t.a = 0x15 ∧ t.halfCarry = true ∧ t.pc = 0x0102 := by
  decide

/-- V43.32 (rule R104). -/
theorem test_sui_v43_32 :
    let t := afterStep 0x0100 [0xD6, 0x01] { State.reset with a := 0x00 }
    t.a = 0xFF ∧ t.sign = true ∧ t.halfCarry = true := by
  decide

/-- V43.34 (rule R105). -/
theorem test_sbi_v43_34 :
    let t := afterStep 0x0100 [0xDE, 0x00] { State.reset with a := 0x00, carry := true }
    t.a = 0xFF ∧ t.sign = true ∧ t.halfCarry = true := by
  decide

/-- V43.35 (rule R106). -/
theorem test_ani_v43_35 :
    let t := afterStep 0x0100 [0xE6, 0x0F] { State.reset with a := 0x3A }
    t.a = 0x0A ∧ t.pc = 0x0102 ∧ t.instructionCounter = 1 := by
  decide

/-- V43.36 (rule R107). -/
theorem test_xri_v43_36 :
    let t := afterStep 0x0100 [0xEE, 0x81] { State.reset with a := 0x3B }
    t.a = 0xBA ∧ t.sign = true ∧ t.pc = 0x0102 := by
  decide

/-- V43.37 (rule R108). -/
theorem test_ori_v43_37 :
    let t := afterStep 0x0100 [0xF6, 0x0F] { State.reset with a := 0xB5 }
    t.a = 0xBF ∧ t.sign = true ∧ t.pc = 0x0102 := by
  decide

/-- V43.39 (rule R109). -/
theorem test_cpi_v43_39 :
    let t := afterStep 0x0100 [0xFE, 0x4B] { State.reset with a := 0x4A }
    t.sign = true ∧ t.halfCarry = true ∧ t.carry = true := by
  decide

/-- V43.41 (rule R110). -/
theorem test_inr_v43_41 :
    let t := afterStep 0x0100 [0x04] { State.reset with b := 0xFF, carry := true }
    t.b = 0x00 ∧ t.zero = true ∧ t.halfCarry = true := by
  decide

/-- V43.45 (rule R110). -/
theorem test_inr_v43_45 :
    let t := afterStep 0x0100 [0x34]
        ({ State.reset with h := 0x30, l := 0x00, carry := true }.writeByte 0x3000 0xFF)
    t.zero = true ∧ t.halfCarry = true ∧ t.readByte 0x3000 = 0x00 := by
  decide

/-- V43.48 (rule R111). -/
theorem test_dcr_v43_48 :
    let t := afterStep 0x0100 [0x35]
        ({ State.reset with h := 0x20, l := 0x00, carry := true }.writeByte 0x2000 0x00)
    t.sign = true ∧ t.halfCarry = true ∧ t.readByte 0x2000 = 0xFF := by
  decide

/-- V43.51 (rule R111). -/
theorem test_dcr_v43_51 :
    let t := afterStep 0x0100 [0x3D] { State.reset with a := 0x10 }
    t.a = 0x0F ∧ t.halfCarry = true ∧ t.pc = 0x0101 := by
  decide

/-- V43.53 (rule R112). -/
theorem test_daa_v43_53 :
    let t := afterStep 0x0100 [0x27] { State.reset with a := 0x9A }
    t.a = 0x00 ∧ t.zero = true ∧ t.halfCarry = true := by
  decide

/-- V43.57 (rule R112). -/
theorem test_daa_v43_57 :
    let t := afterStep 0x0100 [0x27]
        { State.reset with params := { defaultParams with daaMaskIntermediate := true }, a := 0xFA }
    t.a = 0x00 ∧ t.zero = true ∧ t.halfCarry = true := by
  decide

/-- V43.62 (rule R113). -/
theorem test_cma_v43_62 :
    let t := afterStep 0x0100 [0x2F] { State.reset with a := 0x00, zero := true }
    t.a = 0xFF ∧ t.pc = 0x0101 ∧ t.instructionCounter = 1 := by
  decide

/-- V43.63 (rule R114). -/
theorem test_rlc_v43_63 :
    let t := afterStep 0x0100 [0x07] { State.reset with a := 0xF2 }
    t.a = 0xE5 ∧ t.carry = true ∧ t.pc = 0x0101 := by
  decide

/-- V43.66 (rule R115). -/
theorem test_rrc_v43_66 :
    let t := afterStep 0x0100 [0x0F] { State.reset with a := 0x01 }
    t.a = 0x80 ∧ t.carry = true ∧ t.pc = 0x0101 := by
  decide

/-- V43.68 (rule R116). -/
theorem test_ral_v43_68 :
    let t := afterStep 0x0100 [0x17] { State.reset with a := 0x00, carry := true, zero := true }
    t.a = 0x01 ∧ t.carry = false ∧ t.pc = 0x0101 := by
  decide

/-- V43.69 (rule R117). -/
theorem test_rar_v43_69 :
    let t := afterStep 0x0100 [0x1F] { State.reset with a := 0x6A, carry := true }
    t.a = 0xB5 ∧ t.carry = false ∧ t.pc = 0x0101 := by
  decide

/-- V43.71 (rule R118). -/
theorem test_stc_v43_71 :
    let t := afterStep 0x0100 [0x37] State.reset
    t.carry = true ∧ t.pc = 0x0101 ∧ t.instructionCounter = 1 := by
  decide

/-- V43.72 (rule R119). -/
theorem test_cmc_v43_72 :
    let t := afterStep 0x0100 [0x3F] { State.reset with carry := true }
    t.carry = false ∧ t.pc = 0x0101 ∧ t.instructionCounter = 1 := by
  decide

/-- V43.74 (rule R119). -/
theorem test_cmc_v43_74 :
    let t := afterStep 0x0100 [0x3F]
        { State.reset with params := { defaultParams with cmcComplements := true } }
    t.carry = true ∧ t.pc = 0x0101 ∧ t.instructionCounter = 1 := by
  decide

/-- V43.75 (rule R120). -/
theorem test_di_v43_75 :
    let t := afterStep 0x0100 [0xF3] { State.reset with interruptEnabled := true }
    t.interruptEnabled = false ∧ t.pc = 0x0101 ∧ t.instructionCounter = 1 := by
  decide

/-- V43.76 (rule R121). -/
theorem test_ei_v43_76 :
    let t := afterStep 0x0100 [0xFB] State.reset
    t.interruptEnabled = true ∧ t.pc = 0x0101 ∧ t.instructionCounter = 1 := by
  decide

/-- V44.1 (rule R123). -/
theorem test_out_v44_1 :
    let t := afterStep 0x0100 [0xD3, 0x05] { State.reset with a := 0x3C }
    t.portEvents = [.output 0x05 0x3C] ∧ t.pc = 0x0102 ∧ t.instructionCounter = 1 := by
  decide

/-- V44.4 (rule R124). -/
theorem test_inp_v44_4 :
    let t := afterStep 0x0100 [0xDB, 0x02] { State.reset with a := 0x77, zero := true, portInputs := [0x00] }
    t.a = 0x00 ∧ t.pc = 0x0102 ∧ t.instructionCounter = 1 := by
  decide

/-- V45.1 (rule R125). -/
theorem test_nop_v45_1 :
    let t := afterStep 0x0100 [0x00] State.reset
    t.pc = 0x0101 ∧ t.instructionCounter = 1 := by
  decide

/-- V45.3 (rule R126). -/
theorem test_mov_v45_3 :
    let t := afterStep 0x0100 [0x70] { State.reset with h := 0x30, l := 0x00, b := 0x11 }
    t.readByte 0x3000 = 0x11 ∧ t.pc = 0x0101 ∧ t.instructionCounter = 1 := by
  decide

/-- V45.6 (rule R126). -/
theorem test_mov_v45_6 :
    let t := afterStep 0x0100 [0x66] ({ State.reset with h := 0x30, l := 0x00 }.writeByte 0x3000 0x99)
    t.h = 0x99 ∧ t.pc = 0x0101 ∧ t.instructionCounter = 1 := by
  decide

/-- V45.7 (rule R127). -/
theorem test_mvi_v45_7 :
    let t := afterStep 0x0100 [0x36, 0x7E] { State.reset with h := 0x30, l := 0x00 }
    t.readByte 0x3000 = 0x7E ∧ t.pc = 0x0102 ∧ t.instructionCounter = 1 := by
  decide

/-- V45.10 (rule R128). -/
theorem test_lxi_v45_10 :
    let t := afterStep 0x0100 [0x31, 0x00, 0x24] State.reset
    t.sp = 0x2400 ∧ t.pc = 0x0103 ∧ t.instructionCounter = 1 := by
  decide

/-- V45.12 (rule R128). -/
theorem test_lxi_v45_12 :
    let t := afterStep 0x0100 [0x01, 0xCD, 0xAB] State.reset
    t.b = 0xAB ∧ t.c = 0xCD ∧ t.pc = 0x0103 := by
  decide

/-- V45.13 (rule R129). -/
theorem test_lda_v45_13 :
    let t := afterStep 0x0100 [0x3A, 0x00, 0x30] (State.reset.writeByte 0x3000 0x77)
    t.a = 0x77 ∧ t.pc = 0x0103 ∧ t.instructionCounter = 1 := by
  decide

/-- V45.14 (rule R130). -/
theorem test_sta_v45_14 :
    let t := afterStep 0x0100 [0x32, 0x00, 0x30] { State.reset with a := 0x42 }
    t.readByte 0x3000 = 0x42 ∧ t.pc = 0x0103 ∧ t.instructionCounter = 1 := by
  decide

/-- V45.16 (rule R131). -/
theorem test_lhld_v45_16 :
    let t := afterStep 0x0100 [0x2A, 0xFF, 0xFF] ((State.reset.writeByte 0x0000 0x12).writeByte 0xFFFF 0x34)
    t.h = 0x12 ∧ t.l = 0x34 ∧ t.pc = 0x0103 := by
  decide

/-- V45.17 (rule R132). -/
theorem test_shld_v45_17 :
    let t := afterStep 0x0000 [0x22, 0xFF, 0xFF] { State.reset with h := 0xAB, l := 0xCD }
    t.readByte 0x0000 = 0xAB ∧ t.readByte 0xFFFF = 0xCD ∧ t.pc = 0x0003 := by
  decide

/-- V45.19 (rule R133). -/
theorem test_ldax_v45_19 :
    let t := afterStep 0x0100 [0x1A] ({ State.reset with d := 0x30, e := 0x01 }.writeByte 0x3001 0x98)
    t.a = 0x98 ∧ t.pc = 0x0101 ∧ t.instructionCounter = 1 := by
  decide

/-- V45.20 (rule R134). -/
theorem test_stax_v45_20 :
    let t := afterStep 0x0100 [0x02] { State.reset with b := 0x30, c := 0x00, a := 0x5B }
    t.readByte 0x3000 = 0x5B ∧ t.pc = 0x0101 ∧ t.instructionCounter = 1 := by
  decide

/-- V45.22 (rule R135). -/
theorem test_inx_v45_22 :
    let t := afterStep 0x0100 [0x03] { State.reset with b := 0xFF, c := 0xFF, zero := false }
    t.b = 0x00 ∧ t.c = 0x00 ∧ t.pc = 0x0101 := by
  decide

/-- V45.24 (rule R135). -/
theorem test_inx_v45_24 :
    let t := afterStep 0x0100 [0x33] { State.reset with sp := 0xFFFF }
    t.sp = 0x0000 ∧ t.pc = 0x0101 ∧ t.instructionCounter = 1 := by
  decide

/-- V45.25 (rule R136). -/
theorem test_dcx_v45_25 :
    let t := afterStep 0x0100 [0x1B] { State.reset with d := 0x00, e := 0x00 }
    t.d = 0xFF ∧ t.e = 0xFF ∧ t.pc = 0x0101 := by
  decide

/-- V45.28 (rule R137). -/
theorem test_dad_v45_28 :
    let t := afterStep 0x0100 [0x39] { State.reset with h := 0xFF, l := 0xFF, sp := 0x0002 }
    t.h = 0x00 ∧ t.l = 0x01 ∧ t.carry = true := by
  decide

/-- V45.29 (rule R137). -/
theorem test_dad_v45_29 :
    let t := afterStep 0x0100 [0x29] { State.reset with h := 0x80, l := 0x00, zero := true, sign := true }
    t.h = 0x00 ∧ t.carry = true ∧ t.pc = 0x0101 := by
  decide

/-- V60.2 (rule R139). -/
theorem test_invalid_v60_2 :
    let t := afterStep 0x1234 [0x76] { State.reset with a := 0x11, sp := 0x2400 }
    t.crashed = true ∧ t.pc = 0x1234 := by
  decide

/-- V60.5 (rule R139). -/
theorem test_invalid_v60_5 :
    let t := afterStep 0x0100 [0xF4, 0x00, 0x20] State.reset
    t.crashed = true ∧ t.pc = 0x0100 := by
  decide

/-- V60.8 (rule R144). -/
theorem test_injection_v60_8 :
    let t := afterStep 0x0100 [0x00]
        { State.reset with instructionCounter := 1999, interruptEnabled := true, sp := 0x2400 }
    t.interruptAlternate = true ∧ t.pc = 0x0008 ∧ t.instructionCounter = 0 := by
  decide

/-- V60.9 (rule R144). -/
theorem test_injection_v60_9 :
    let t := afterStep 0x0100 [0x00]
        { State.reset with
          instructionCounter := 1999, interruptEnabled := true, interruptAlternate := true, sp := 0x2400 }
    t.interruptAlternate = false ∧ t.pc = 0x0010 ∧ t.instructionCounter = 0 := by
  decide

/-- V60.10 (rule R144). -/
theorem test_check_without_injection_v60_10 :
    let t := afterStep 0x0100 [0x00]
        { State.reset with instructionCounter := 1999, interruptEnabled := false, sp := 0x2400 }
    t.pc = 0x0101 ∧ t.instructionCounter = 0 := by
  decide

/-- V60.11 (rule R144). -/
theorem test_check_without_injection_v60_11 :
    let t := afterStep 0x0100 [0xF3]
        { State.reset with instructionCounter := 1999, interruptEnabled := true, sp := 0x2400 }
    t.pc = 0x0101 ∧ t.instructionCounter = 0 := by
  decide

/-- V60.12 (rule R144). -/
theorem test_ei_at_the_check_v60_12 :
    let t := afterStep 0x0100 [0xFB]
        { State.reset with instructionCounter := 1999, interruptEnabled := false, sp := 0x2400 }
    t.interruptAlternate = true ∧ t.pc = 0x0008 ∧ t.instructionCounter = 0 := by
  decide

/-- V60.13 (rule R144). -/
theorem test_jump_at_the_check_v60_13 :
    let t := afterStep 0x0100 [0xC3, 0x00, 0x50]
        { State.reset with instructionCounter := 1999, interruptEnabled := true, sp := 0x2400 }
    t.interruptAlternate = true ∧ t.pc = 0x0008 ∧ t.instructionCounter = 0 := by
  decide

/-- V60.16 (rule R143). -/
theorem test_crash_at_the_check_v60_16 :
    let t := afterStep 0x0100 [0x76]
        { State.reset with instructionCounter := 1999, interruptEnabled := true, sp := 0x2400 }
    t.crashed = true ∧ t.pc = 0x0100 := by
  decide

/-! ### Reset, construction and the host's operations -/

/-- V70.1 (R161): memory is kept, everything else is zeroed. -/
theorem test_reset_v70_1 :
    let s := { State.reset with a := 0x12, sp := 0x2400, pc := 0x1234, parity := true, crashed := true }
    let t := hostReset (s.writeByte 0x3000 0x5A)
    t.a = 0x00 ∧ t.sp = 0x0000 ∧ t.pc = 0x0000 ∧ t.parity = false ∧ t.crashed = false ∧ t.readByte 0x3000 = 0x5A := by
  decide

/-- V70.2 (R160). -/
theorem test_construct_v70_2 :
    construct defaultParams [0x3E, 0x01] [] =
      .next ((State.reset.writeByte 0x0000 0x3E).writeByte 0x0001 0x01) := by
  rfl

/-- V60.1 (R139, R140): the diagnostic. -/
theorem test_host_step_v60_1 :
    hostStep (codeAt 0x0100 [0x08] State.reset) =
      .next (.crashed { instructionIndex := 0, opcode := 0x08, pc := 0x0100 },
        { codeAt 0x0100 [0x08] State.reset with crashed := true }) := by
  rfl

/-- E8 as one frame of four iterations (R151): NOP, then the crash at index 1. -/
theorem test_run_frame_e8 :
    runFrame (codeAt 0x0000 [0x00, 0x08] { State.reset with params := { defaultParams with quota := 4 } }) =
      .next (.crashed { instructionIndex := 1, opcode := 0x08, pc := 0x0001 },
        { codeAt 0x0000 [0x00, 0x08] { State.reset with params := { defaultParams with quota := 4 } } with
          pc := 0x0001, crashed := true, instructionCounter := 1 }) := by
  rfl

/-! ### Witnesses: the hypotheses of each statement are met together -/

theorem witness_ConstructionLoadsTheImage : defaultParams.wf ∧ (List.replicate 65536 (0xFF : Byte)).length ≤ 65536 :=
  ⟨by decide, by rw [List.length_replicate]⟩

theorem witness_ConstructionRefusesBadArguments_quota : ¬{ defaultParams with quota := 1 }.wf := by decide

theorem witness_ConstructionRefusesBadArguments_image :
    { defaultParams with quota := 2 }.wf ∧ 65536 < (List.replicate 65537 (0x00 : Byte)).length :=
  ⟨by decide, by rw [List.length_replicate]; decide⟩

theorem witness_ByteStoreChangesOneByte : (0x0000 : Word) ≠ 0xFFFF := by decide

theorem witness_WordAccessIsLittleEndianAndWraps : (0x0001 : Word) ≠ 0xFFFF ∧ (0x0001 : Word) ≠ 0xFFFF + 1 := by decide

theorem witness_CanonicalMemoryIsKeptAndUnique :
    Memory.wf [(0x0000, 0xFF), (0xFFFF, 0x01)] = true ∧
    ∃ m m' : Memory, m.wf = true ∧ m'.wf = true ∧ m ≠ [] ∧ ∀ a : Word, m.readByte a = m'.readByte a :=
  ⟨by decide, [(0xFFFF, 0x01)], [(0xFFFF, 0x01)], by decide, by decide, by decide, fun _ => rfl⟩

theorem witness_StoreIsSeenByTheNextFetch : State.reset.params.implements 0x3C = true := by decide

theorem witness_DecodeOfEncodeIsTheInstruction :
    WellFormed (.lxi .sp 0xFFFF) ∧ WellFormed (.mov .m .a) ∧ WellFormed (.rst 7) ∧ WellFormed (.invalid 0xFD) := by
  decide

theorem witness_EncodeOfDecodeIsTheBytes : decode [0xC2, 0xFF, 0xFF, 0x99] = .ok (.jnz 0xFFFF, [0x99]) := by decide

theorem witness_UndefinedBytesAreExactlyTheTable :
    (0xFD : Byte) ∈ undefinedOpcodes ∧ (0xFF : Byte) ∉ undefinedOpcodes := by decide

/-- A JMP whose bytes wrap around the end of memory. -/
theorem witness_StepRunsTheFetchedInstruction :
    let s := codeAt 0xFFFE [0xC3, 0x34, 0x12] State.reset
    s.crashed = false ∧ s.params.implements (s.readByte s.pc) = true ∧
    decode [s.readByte s.pc, s.readByte (s.pc + 1), s.readByte (s.pc + 2)] = .ok (.jmp 0x1234, []) := by decide

theorem witness_CrashedCoreDoesNothing_crashed : { State.reset with crashed := true }.crashed = true := by decide

theorem witness_CrashedCoreDoesNothing_running :
    let s := codeAt 0xFFFF [0x76] State.reset
    s.crashed = false ∧ step s = .next { s with crashed := true } := by
  intro s
  exact ⟨rfl, next_of_answers (by decide)⟩

theorem witness_InvalidOpcodeCrashes :
    let s := codeAt 0xFFFF [0xFD] State.reset
    s.crashed = false ∧ s.params.implements (s.readByte s.pc) = false := by decide

/-- The state is one step before the scheduler's check. -/
theorem witness_StepKeepsTheInvariant :
    let s := { State.reset with instructionCounter := 1999 }
    s.Inv ∧ step s = .next { s with pc := 0x0001, instructionCounter := 0 } := by
  intro s
  exact ⟨by decide, next_of_answers (by decide)⟩

theorem witness_ResetHasTheInvariant : { defaultParams with quota := 2 }.wf ∧ State.reset.mem.wf = true := by decide

theorem witness_ParityIsNeverReadNorWritten :
    step State.reset = .next { State.reset with pc := 0x0001, instructionCounter := 1 } := by
  rfl

/-- An ADI at 0xFFFF. -/
theorem witness_PcAdvancesPastTheInstruction :
    let s := codeAt 0xFFFF [0xC6, 0x42] State.reset
    s.params.implements (s.readByte s.pc) = true ∧ transfersControl s.fetchInstr.1 = false ∧
    exec s.fetchInstr.1 s.fetchInstr.2 = .next { s with a := 0x42, pc := 0x0001 } := by
  intro s
  exact ⟨by decide, by decide, next_of_answers (by decide)⟩

theorem witness_InstructionsKeepWhatTheyDoNotName :
    exec (.inr .b) State.reset = .next { State.reset with b := 0x01 } ∧ Field.carry ∉ mayWrite (.inr .b) := by
  exact ⟨rfl, by decide⟩

/-- A store that wraps, and a form that stores nothing. -/
theorem witness_InstructionsStoreOnlyTheirBytes :
    (exec (.shld 0xFFFF) { State.reset with h := 0xAB } =
      .next ({ State.reset with h := 0xAB }.writeByte 0x0000 0xAB) ∧
      0x0001 ∉ storedAddrs (.shld 0xFFFF) { State.reset with h := 0xAB }) ∧
    exec (.cz 0x3000) State.reset = .next State.reset ∧ 0xFFFE ∉ storedAddrs (.cz 0x3000) State.reset := by
  exact ⟨⟨rfl, by decide⟩, rfl, by decide⟩

theorem witness_OnlyPortInstructionsTouchThePorts :
    exec .stc State.reset = .next { State.reset with carry := true } ∧
    (∀ port, Instr.stc ≠ .inp port) ∧ ∀ port, Instr.stc ≠ .out port :=
  ⟨rfl, ⟨fun _ h => (by cases h), fun _ h => (by cases h)⟩⟩

/-- Below the check, and at it with interrupts disabled and enabled. -/
theorem witness_SchedulerCountsAndChecks :
    let s := { State.reset with instructionCounter := 1998 }
    let u := { State.reset with instructionCounter := 1999 }
    (s.crashed = false ∧ s.params.implements (s.readByte s.pc) = true ∧
      s.instructionCounter + 1 ≠ s.params.quota / 2) ∧
    (u.crashed = false ∧ u.params.implements (u.readByte u.pc) = true ∧
      u.instructionCounter + 1 = u.params.quota / 2 ∧
      exec u.fetchInstr.1 u.fetchInstr.2 = .next { u with pc := 0x0001, interruptEnabled := false }) ∧
    exec { u with interruptEnabled := true }.fetchInstr.1 { u with interruptEnabled := true }.fetchInstr.2 =
      .next { u with pc := 0x0001, interruptEnabled := true } := by
  intro s u
  exact ⟨⟨rfl, by decide, by decide⟩, ⟨rfl, by decide, by decide, next_of_answers (by decide)⟩, next_of_answers (by decide)⟩

/-- A push across the end of memory leaves the byte at 0x0001 alone. -/
theorem witness_InjectionPushesPcAndGoesToTheVector :
    (0x0001 : Word) ≠ { State.reset with sp := 0x0001 }.sp - 2 ∧
    (0x0001 : Word) ≠ { State.reset with sp := 0x0001 }.sp - 1 := by decide

theorem witness_AlternationChangesOnlyByInjection :
    let s := { State.reset with instructionCounter := 1999, interruptEnabled := true }
    step s = .next (afterStep 0x0000 [0x00] s) ∧ (afterStep 0x0000 [0x00] s).interruptAlternate ≠ s.interruptAlternate := by
  intro s
  exact ⟨next_of_answers (by decide), by decide⟩

/-- Two steps that meet the check of a quota of 2. -/
theorem witness_CounterIsTheStepCountModuloThePeriod :
    let s := { State.reset with params := { defaultParams with quota := 2 } }
    s.Inv ∧ Host.Core.run Sys2Proof.core 2 s = .next { s with pc := 0x0002 } ∧ { s with pc := 0x0002 }.crashed = false :=
  ⟨by decide, by rfl, by decide⟩

theorem witness_HostStepIsOneIteration :
    step (codeAt 0xFFFF [0x76] State.reset) = .next { codeAt 0xFFFF [0x76] State.reset with crashed := true } := by
  rfl

theorem witness_PushAndPopPrimitives :
    (0x0000 : Word) ≠ { State.reset with sp := 0x0000 }.sp - 2 ∧
    (0x0000 : Word) ≠ { State.reset with sp := 0x0000 }.sp - 1 := by decide

theorem witness_CallInstructions :
    ∃ c : State, c = { State.reset with
      sp := State.reset.sp - 2
      mem := State.reset.mem.writeWord (State.reset.sp - 2) State.reset.pc
      pc := 0x3000 } := ⟨_, rfl⟩

theorem witness_ReturnInstructions :
    ∃ r : State, r = { State.reset with sp := State.reset.sp + 2, pc := State.reset.mem.readWord State.reset.sp } :=
  ⟨_, rfl⟩

/-- 0xFA, where the two readings of the intermediate value differ. -/
theorem witness_DecimalAdjust :
    let s := { State.reset with a := 0xFA }
    true = decide (9 < s.a.toNat % 16 ∨ s.halfCarry = true) ∧ 256 = s.a.toNat + (if true = true then 6 else 0) ∧
    256 = (if s.params.daaMaskIntermediate = true then 256 % 256 else 256) ∧
    true = decide (159 < 256 ∨ s.carry = true) ∧ 0x60 = (256 + (if true = true then 96 else 0)) % 256 := by decide

/-- 99 + 99 with a carry in. -/
theorem witness_DaaCorrectsDecimalAddition :
    let s := { State.reset with a := 0x99, b := 0x99, carry := true }
    s.params.daaMaskIntermediate = false ∧ s.a = bcdByte 99 ∧ s.readOperand .b = bcdByte 99 ∧
    exec (.adc .b) s = .next { s with a := 0x33, halfCarry := true, carry := true } := by
  intro s
  exact ⟨rfl, by decide, by decide, next_of_answers (by decide)⟩

theorem witness_AdditionForms : (1 : Nat) ≤ 1 := by decide

theorem witness_CmcClearsOrComplements :
    State.reset.params.cmcComplements = false ∧
    { State.reset with params := { defaultParams with cmcComplements := true } }.params.cmcComplements = true := by decide

theorem witness_PortInstructions :
    { State.reset with portInputs := [0x08] }.portInputs = 0x08 :: [] ∧ State.reset.portInputs = [] := by decide

theorem witness_MoveInstructions : ¬(Operand8.m = .m ∧ Operand8.a = .m) := by decide

end Sys2Proof.Tests
end

section
/-! SUPPORT. Proofs of the family `10_state.md`: the paired views (O9), the crashed core (O17), the frame of an
instruction (O24) and the program counter after it (O23). -/

namespace Sys2Proof.Machine

/-! ### Frames: which fields an operation may write -/

/-- Every field outside `fs` has the same value in `s` and in `t`. -/
def WritesOnly (fs : List Field) (s t : State) : Prop := ∀ f, f ∉ fs → f.Same s t

/-- A frame said field by field: the form in which the `@[simp]` lemmas of an operation give it. -/
theorem writesOnly_iff {fs : List Field} {s t : State} :
    WritesOnly fs s t ↔
      (.params ∈ fs ∨ t.params = s.params) ∧ (.a ∈ fs ∨ t.a = s.a) ∧ (.b ∈ fs ∨ t.b = s.b) ∧ (.c ∈ fs ∨ t.c = s.c) ∧
      (.d ∈ fs ∨ t.d = s.d) ∧ (.e ∈ fs ∨ t.e = s.e) ∧ (.h ∈ fs ∨ t.h = s.h) ∧ (.l ∈ fs ∨ t.l = s.l) ∧
      (.pc ∈ fs ∨ t.pc = s.pc) ∧ (.sp ∈ fs ∨ t.sp = s.sp) ∧
      (.zero ∈ fs ∨ t.zero = s.zero) ∧ (.sign ∈ fs ∨ t.sign = s.sign) ∧
      (.halfCarry ∈ fs ∨ t.halfCarry = s.halfCarry) ∧ (.carry ∈ fs ∨ t.carry = s.carry) ∧
      (.parity ∈ fs ∨ t.parity = s.parity) ∧ (.interruptEnabled ∈ fs ∨ t.interruptEnabled = s.interruptEnabled) ∧
      (.crashed ∈ fs ∨ t.crashed = s.crashed) ∧
      (.instructionCounter ∈ fs ∨ t.instructionCounter = s.instructionCounter) ∧
      (.interruptAlternate ∈ fs ∨ t.interruptAlternate = s.interruptAlternate) ∧ (.mem ∈ fs ∨ t.mem = s.mem) ∧
      (.portInputs ∈ fs ∨ t.portInputs = s.portInputs) ∧ (.portEvents ∈ fs ∨ t.portEvents = s.portEvents) := by
  constructor
  · intro h
    have key (f : Field) : f ∈ fs ∨ f.Same s t := or_iff_not_imp_left.mpr (h f)
    exact ⟨key .params, key .a, key .b, key .c, key .d, key .e, key .h, key .l, key .pc, key .sp, key .zero, key .sign,
      key .halfCarry, key .carry, key .parity, key .interruptEnabled, key .crashed, key .instructionCounter,
      key .interruptAlternate, key .mem, key .portInputs, key .portEvents⟩
  · rintro ⟨_, _, _, _, _, _, _, _, _, _, _, _, _, _, _, _, _, _, _, _, _, _⟩ f hf
    cases f <;> exact Or.resolve_left ‹_› hf

theorem WritesOnly.refl (s : State) : WritesOnly [] s s := writesOnly_iff.mpr (by simp)

theorem WritesOnly.mono {fs gs : List Field} {s t : State} (h : WritesOnly fs s t) (hsub : fs ⊆ gs) :
    WritesOnly gs s t :=
  fun f hf => h f (fun hm => hf (hsub hm))

theorem Field.Same.trans {f : Field} {s t u : State} (hst : f.Same s t) (htu : f.Same t u) : f.Same s u := by
  cases f <;> exact Eq.trans htu hst

/-- One operation after another writes what the two write. -/
theorem WritesOnly.trans {fs gs : List Field} {s t u : State} (hst : WritesOnly fs s t) (htu : WritesOnly gs t u) :
    WritesOnly (fs ++ gs) s u := by
  intro f hf
  obtain ⟨hfs, hgs⟩ := not_or.mp (mt List.mem_append.mpr hf)
  exact (hst f hfs).trans (htu f hgs)

/-- An operation that may be left out writes at most what it writes. -/
theorem WritesOnly.ite {fs : List Field} {s t : State} (c : Prop) [Decidable c] (h : WritesOnly fs s t) :
    WritesOnly fs s (if c then t else s) := by
  split
  · exact h
  · exact (WritesOnly.refl s).mono (List.nil_subset fs)

/-! #### Single fields -/

theorem State.writesOnly_a (s : State) (v : Byte) : WritesOnly [.a] s { s with a := v } :=
  writesOnly_iff.mpr (by simp)

theorem State.writesOnly_sp (s : State) (v : Word) : WritesOnly [.sp] s { s with sp := v } :=
  writesOnly_iff.mpr (by simp)

theorem State.writesOnly_carry (s : State) (b : Bool) : WritesOnly [.carry] s { s with carry := b } :=
  writesOnly_iff.mpr (by simp)

theorem State.writesOnly_interruptEnabled (s : State) (b : Bool) :
    WritesOnly [.interruptEnabled] s { s with interruptEnabled := b } :=
  writesOnly_iff.mpr (by simp)

/-! #### Pairs, memory and the stack -/

theorem State.writesOnly_setBC (s : State) (v : Word) : WritesOnly [.b, .c] s (s.setBC v) :=
  writesOnly_iff.mpr (by simp)

theorem State.writesOnly_setDE (s : State) (v : Word) : WritesOnly [.d, .e] s (s.setDE v) :=
  writesOnly_iff.mpr (by simp)

theorem State.writesOnly_setHL (s : State) (v : Word) : WritesOnly [.h, .l] s (s.setHL v) :=
  writesOnly_iff.mpr (by simp)

theorem State.writesOnly_writeByte (s : State) (x : Word) (v : Byte) : WritesOnly [.mem] s (s.writeByte x v) :=
  writesOnly_iff.mpr (by simp)

theorem State.writesOnly_writeWord (s : State) (x v : Word) : WritesOnly [.mem] s (s.writeWord x v) :=
  writesOnly_iff.mpr (by simp)

theorem State.writesOnly_push16 (s : State) (v : Word) : WritesOnly [.sp, .mem] s (s.push16 v) :=
  writesOnly_iff.mpr (by simp)

theorem State.writesOnly_popped (s : State) : WritesOnly [.sp] s s.popped := s.writesOnly_sp _

/-! #### Transfers of control, the crash and the ports -/

theorem State.writesOnly_jumpTo (s : State) (v : Word) : WritesOnly [.pc] s (s.jumpTo v) :=
  writesOnly_iff.mpr (by simp)

theorem State.writesOnly_callTo (s : State) (v : Word) : WritesOnly [.pc, .sp, .mem] s (s.callTo v) :=
  ((s.writesOnly_push16 _).trans (State.writesOnly_jumpTo _ v)).mono (by decide)

theorem State.writesOnly_ret (s : State) : WritesOnly [.pc, .sp] s s.ret :=
  (s.writesOnly_popped.trans (State.writesOnly_jumpTo _ _)).mono (by decide)

theorem State.writesOnly_jumpIf (s : State) (cond : Cond) (v : Word) : WritesOnly [.pc] s (s.jumpIf cond v) :=
  (s.writesOnly_jumpTo v).ite _

theorem State.writesOnly_callIf (s : State) (cond : Cond) (v : Word) :
    WritesOnly [.pc, .sp, .mem] s (s.callIf cond v) :=
  (s.writesOnly_callTo v).ite _

theorem State.writesOnly_retIf (s : State) (cond : Cond) : WritesOnly [.pc, .sp] s (s.retIf cond) :=
  s.writesOnly_ret.ite _

theorem State.writesOnly_crash (s : State) : WritesOnly [.crashed] s s.crash := writesOnly_iff.mpr (by simp)

theorem State.writesOnly_portOut (s : State) (port v : Byte) : WritesOnly [.portEvents] s (s.portOut port v) :=
  writesOnly_iff.mpr (by simp)

theorem State.writesOnly_portIn (s : State) (port : Byte) :
    WritesOnly [.a, .portInputs, .portEvents] s (s.portIn port) :=
  writesOnly_iff.mpr (by simp)

/-! #### The ALU -/

theorem State.writesOnly_add8 (s : State) (v : Byte) (cin : Bool) :
    WritesOnly [.a, .zero, .sign, .halfCarry, .carry] s (s.add8 v cin) :=
  writesOnly_iff.mpr (by simp)

theorem State.writesOnly_sub8 (s : State) (v : Byte) (cin store : Bool) :
    WritesOnly [.a, .zero, .sign, .halfCarry, .carry] s (s.sub8 v cin store) :=
  writesOnly_iff.mpr (by simp)

@[simp] theorem State.a_sub8_false (s : State) (v : Byte) (cin : Bool) : (s.sub8 v cin false).a = s.a := rfl

/-- A comparison leaves `A` alone. -/
theorem State.writesOnly_sub8_false (s : State) (v : Byte) (cin : Bool) :
    WritesOnly [.zero, .sign, .halfCarry, .carry] s (s.sub8 v cin false) :=
  writesOnly_iff.mpr (by simp)

theorem State.writesOnly_logic8 (s : State) (r : Byte) :
    WritesOnly [.a, .zero, .sign, .halfCarry, .carry] s (s.logic8 r) :=
  writesOnly_iff.mpr (by simp)

theorem State.writesOnly_setIncDecFlags (s : State) (v r : Byte) :
    WritesOnly [.zero, .sign, .halfCarry] s (s.setIncDecFlags v r) :=
  writesOnly_iff.mpr (by simp)

theorem State.writesOnly_decimalAdjust (s : State) :
    WritesOnly [.a, .zero, .sign, .halfCarry, .carry] s s.decimalAdjust :=
  writesOnly_iff.mpr (by simp)

theorem State.writesOnly_rotateLeft (s : State) (b : Bool) : WritesOnly [.a, .carry] s (s.rotateLeft b) :=
  writesOnly_iff.mpr (by simp)

theorem State.writesOnly_rotateRight (s : State) (b : Bool) : WritesOnly [.a, .carry] s (s.rotateRight b) :=
  writesOnly_iff.mpr (by simp)

theorem State.writesOnly_addToHL (s : State) (v : Word) : WritesOnly [.h, .l, .carry] s (s.addToHL v) :=
  writesOnly_iff.mpr (by simp)

theorem State.writesOnly_setPSW (s : State) (v : Word) :
    WritesOnly [.a, .sign, .zero, .interruptEnabled, .halfCarry, .carry] s (s.setPSW v) :=
  writesOnly_iff.mpr (by simp)

/-! #### Operand forms -/

theorem State.writesOnly_writeOperand (s : State) (r : Operand8) (v : Byte) :
    WritesOnly (Operand8.fields r) s (s.writeOperand r v) := by
  rw [writesOnly_iff]
  cases r <;> simp [Operand8.fields, State.writeOperand]

theorem State.writesOnly_writePair (s : State) : ∀ (rp : RegPair) (v : Word),
    WritesOnly (RegPair.fields rp) s (s.writePair rp v)
  | .bc, v => s.writesOnly_setBC v
  | .de, v => s.writesOnly_setDE v
  | .hl, v => s.writesOnly_setHL v
  | .sp, v => s.writesOnly_sp v

theorem State.writesOnly_writeStackPair (s : State) : ∀ (rp : StackPair) (v : Word),
    WritesOnly (StackPair.fields rp) s (s.writeStackPair rp v)
  | .bc, v => s.writesOnly_setBC v
  | .de, v => s.writesOnly_setDE v
  | .hl, v => s.writesOnly_setHL v
  | .psw, v => s.writesOnly_setPSW v

/-! ### The frame of an instruction -/

/-- An instruction writes only the fields its rule names: each arm cites the frame of the operation it runs. -/
theorem effect_writesOnly (i : Instr) (s : State) : WritesOnly (mayWrite i) s (effect i s) :=
  match i with
  | .nop => .refl s
  | .mov r _ | .mvi r _ => s.writesOnly_writeOperand r _
  | .lxi rp _ | .inx rp | .dcx rp => s.writesOnly_writePair rp _
  | .lda _ | .ldax _ | .cma => s.writesOnly_a _
  | .sta _ | .stax _ => s.writesOnly_writeByte _ _
  | .shld _ => s.writesOnly_writeWord _ _
  | .lhld _ => s.writesOnly_setHL _
  | .dad _ => s.writesOnly_addToHL _
  | .add _ | .adc _ | .adi _ | .aci _ => s.writesOnly_add8 _ _
  | .sub _ | .sbb _ | .sui _ | .sbi _ => s.writesOnly_sub8 _ _ true
  | .cmp _ | .cpi _ => s.writesOnly_sub8_false _ false
  | .ana _ | .xra _ | .ora _ | .ani _ | .xri _ | .ori _ => s.writesOnly_logic8 _
  | .daa => s.writesOnly_decimalAdjust
  | .inr r | .dcr r => (s.writesOnly_writeOperand r _).trans (State.writesOnly_setIncDecFlags _ _ _)
  | .rlc | .ral => s.writesOnly_rotateLeft _
  | .rrc | .rar => s.writesOnly_rotateRight _
  | .stc | .cmc => s.writesOnly_carry _
  | .di | .ei => s.writesOnly_interruptEnabled _
  | .jmp _ | .pchl => s.writesOnly_jumpTo _
  | .jnz _ | .jz _ | .jnc _ | .jc _ | .jp _ | .jm _ => s.writesOnly_jumpIf _ _
  | .call _ | .rst _ => s.writesOnly_callTo _
  | .cnz _ | .cz _ | .cnc _ | .cc _ => s.writesOnly_callIf _ _
  | .ret => s.writesOnly_ret
  | .rnz | .rz | .rnc | .rc => s.writesOnly_retIf _
  | .push _ => s.writesOnly_push16 _
  | .pop rp => s.writesOnly_popped.trans (State.writesOnly_writeStackPair _ rp _)
  | .xchg => (s.writesOnly_setDE _).trans (State.writesOnly_setHL _ _)
  | .xthl => ((s.writesOnly_writeWord _ _).trans (State.writesOnly_setHL _ _)).mono (by decide)
  | .sphl => s.writesOnly_sp _
  | .out _ => s.writesOnly_portOut _ _
  | .inp _ => s.writesOnly_portIn _
  | .invalid _ => s.writesOnly_crash

theorem exec_writesOnly {i : Instr} {s t : State} (h : exec i s = .next t) : WritesOnly (mayWrite i) s t := by
  rw [exec_eq_effect, Host.Outcome.next.injEq] at h
  exact h ▸ effect_writesOnly i s

/-- Settles O24: every field outside the written ones keeps its value, by the frame of each operation `exec` runs. -/
theorem instructionsKeepWhatTheyDoNotName : Obligations.InstructionsKeepWhatTheyDoNotName :=
  fun _ _ _ f h hf => exec_writesOnly h f hf

/-! ### The program counter -/

theorem Operand8.pc_not_mem_fields (r : Operand8) : Field.pc ∉ Operand8.fields r := by cases r <;> decide

theorem RegPair.pc_not_mem_fields (rp : RegPair) : Field.pc ∉ RegPair.fields rp := by cases rp <;> decide

theorem StackPair.pc_not_mem_fields (rp : StackPair) : Field.pc ∉ StackPair.fields rp := by cases rp <;> decide

/-- Only a transfer of control names `PC` as written (spec/10_state.md R23). -/
theorem pc_not_mem_mayWrite {i : Instr} (h : transfersControl i = false) : Field.pc ∉ mayWrite i := by
  cases i with
  | mov r _ | mvi r _ => exact Operand8.pc_not_mem_fields r
  | lxi rp _ | inx rp | dcx rp => exact RegPair.pc_not_mem_fields rp
  | inr r | dcr r => simp [mayWrite, Operand8.pc_not_mem_fields r]
  | pop rp => simp [mayWrite, StackPair.pc_not_mem_fields rp]
  | _ => simp_all [transfersControl, mayWrite]

/-- Settles O23: the fetch leaves `PC` past the instruction's bytes, and `PC` is outside the instruction's frame. -/
theorem pcAdvancesPastTheInstruction : Obligations.PcAdvancesPastTheInstruction := by
  intro s t himpl htransfer hexec
  have hframe : t.pc = s.fetchInstr.2.pc := exec_writesOnly hexec .pc (pc_not_mem_mayWrite htransfer)
  rw [hframe, State.fetchInstr_of_implements s himpl]

/-! ### The crashed core -/

/-- A state that steps to itself is where any number of steps from it ends. -/
theorem run_of_step_self {s : State} (h : step s = .next s) (n : Nat) :
    Host.Core.run Sys2Proof.core n s = .next s := by
  induction n with
  | zero => rfl
  | succ n ih => rw [run_succ n h, ih]

theorem iteration_of_crashed {s : State} (index : Nat) (h : s.crashed = true) :
    iteration index s = .next (.noop, s) := by
  simp [iteration, step_of_crashed h, State.iterationResult, h]

/-- The step of a running core sets `crashed` exactly at an unimplemented byte. -/
theorem crashed_after_step_iff {s t : State} (hc : s.crashed = false) (h : step s = .next t) :
    t.crashed = true ↔ s.params.implements (s.readByte s.pc) = false := by
  rcases step_cases h with ⟨hc', _⟩ | ⟨_, himpl, rfl⟩ | ⟨_, himpl, u, _, hu, rfl⟩
  · simp [hc] at hc'
  · simp [himpl]
  · obtain ⟨_, _, hkeep⟩ := u.schedule_keeps
    simp [himpl, hkeep, hu]

/-- Settles O17, by the three things an iteration can be. -/
theorem crashedCoreDoesNothing : Obligations.CrashedCoreDoesNothing := by
  intro s t index n
  refine ⟨fun hc => ?_, rfl, crashed_after_step_iff⟩
  have hstep := step_of_crashed hc
  exact ⟨hstep, iteration_of_crashed index hc, run_of_step_self hstep n⟩

/-! ### The paired views -/

theorem hiByte_eq_ofNat (v : Word) : hiByte v = BitVec.ofNat 8 (v.toNat / 256) := by
  rw [← hiByte_toNat, BitVec.ofNat_toNat, BitVec.setWidth_eq]

theorem loByte_eq_ofNat (v : Word) : loByte v = BitVec.ofNat 8 (v.toNat % 256) := by
  rw [← loByte_toNat, BitVec.ofNat_toNat, BitVec.setWidth_eq]

/-- Settles O9: a view is its two halves as one word, and a write stores the halves of the word. -/
theorem pairedViewsFollowTheirHalves : Obligations.PairedViewsFollowTheirHalves := by
  intro s v
  refine ⟨⟨mkWord_toNat _ _, mkWord_toNat _ _, mkWord_toNat _ _⟩, ?_, ?_, ?_,
    mkWord_hi_lo v, mkWord_hi_lo v, mkWord_hi_lo v⟩
  · rw [State.setBC, hiByte_eq_ofNat, loByte_eq_ofNat]
  · rw [State.setDE, hiByte_eq_ofNat, loByte_eq_ofNat]
  · rw [State.setHL, hiByte_eq_ofNat, loByte_eq_ofNat]

end Sys2Proof.Machine
end

section
/-! SUPPORT. Proofs of the family `20_memory.md`: the byte store (O5) and the word access (O6). -/

namespace Sys2Proof.Machine

/-- Settles O5, by what a byte store leaves at its own address and at every other. -/
theorem byteStoreChangesOneByte : Obligations.ByteStoreChangesOneByte :=
  fun m addr _ v => ⟨m.readByte_writeByte_same addr v, m.readByte_writeByte_ne v⟩

/-! ### The bytes of a word in memory -/

/-- The low byte stands even where the high byte's address wraps, since `x` and `x + 1` differ at 0xFFFF too (R41). -/
theorem Memory.readByte_writeWord_low (m : Memory) (x v : Word) : (m.writeWord x v).readByte x = loByte v := by
  rw [Memory.readByte_writeWord, if_neg (Memory.ne_succ x), if_pos rfl]

theorem Memory.readByte_writeWord_high (m : Memory) (x v : Word) : (m.writeWord x v).readByte (x + 1) = hiByte v := by
  rw [Memory.readByte_writeWord, if_pos rfl]

theorem Memory.readByte_writeWord_ne (m : Memory) {x y : Word} (v : Word) (hlow : y ≠ x) (hhigh : y ≠ x + 1) :
    (m.writeWord x v).readByte y = m.readByte y := by
  rw [Memory.readByte_writeWord, if_neg hhigh, if_neg hlow]

/-- A word read in plain numbers: little-endian (R40). -/
theorem Memory.readWord_toNat (m : Memory) (x : Word) :
    (m.readWord x).toNat = (m.readByte x).toNat + 256 * (m.readByte (x + 1)).toNat := by
  rw [Memory.readWord, mkWord_toNat, Nat.mul_comm, Nat.add_comm]

/-- Settles O6: a word is its two bytes on both sides, and the two addresses differ also where they wrap. -/
theorem wordAccessIsLittleEndianAndWraps : Obligations.WordAccessIsLittleEndianAndWraps := by
  intro m addr other v
  refine ⟨m.readWord_toNat addr, ?low, ?high, m.readByte_writeWord_ne v, m.readWord_writeWord_same addr v, by decide⟩
  case low => rw [Memory.readByte_writeWord_low, loByte_toNat]
  case high => rw [Memory.readByte_writeWord_high, hiByte_toNat]

end Sys2Proof.Machine
end

section
/-! SUPPORT. Proofs of the family `42_stack.md`: the stack primitives (O34). -/

namespace Sys2Proof.Machine

/-! ### The bytes a push stores -/

/-- The byte above the new `SP` lies one below the old one, also where `SP` wraps (R80). -/
theorem Memory.sub_two_succ (x : Word) : x - 2 + 1 = x - 1 := by bv_omega

theorem State.readByte_push16_low (s : State) (v : Word) : (s.push16 v).readByte (s.sp - 2) = loByte v :=
  s.mem.readByte_writeWord_low (s.sp - 2) v

theorem State.readByte_push16_high (s : State) (v : Word) : (s.push16 v).readByte (s.sp - 1) = hiByte v := by
  rw [← Memory.sub_two_succ]
  exact s.mem.readByte_writeWord_high (s.sp - 2) v

theorem State.readByte_push16_ne (s : State) {x : Word} (v : Word) (hlow : x ≠ s.sp - 2) (hhigh : x ≠ s.sp - 1) :
    (s.push16 v).readByte x = s.readByte x := by
  rw [← Memory.sub_two_succ] at hhigh
  exact s.mem.readByte_writeWord_ne v hlow hhigh

/-- Settles O34: a push is a word store at `SP - 2` and a pop a word load at `SP`, each read as its two bytes. -/
theorem pushAndPopPrimitives : Obligations.PushAndPopPrimitives := by
  intro s v other
  refine ⟨rfl, ?low, ?high, s.readByte_push16_ne v, s.mem.readWord_toNat s.sp, rfl, s.popValue_push16 v⟩
  case low => rw [State.readByte_push16_low, loByte_toNat]
  case high => rw [State.readByte_push16_high, hiByte_toNat]

end Sys2Proof.Machine
end

section
/-! SUPPORT. Proofs of the decoder's statements: the round trip in both directions (O11, O12), the sample words (O13),
the undefined bytes (O14) and the length (O15). -/

namespace Sys2Proof.Machine

/-! ### From an instruction to its bytes and back -/

/-- The round trip of every constructor, from the family `RoundTrip`. -/
theorem decode_encode : ∀ i : Instr, Laws.RoundTrip.Statement i
  | .nop => Laws.RoundTrip.nop
  | .lxi rp d16 => Laws.RoundTrip.lxi rp d16
  | .stax rp => Laws.RoundTrip.stax rp
  | .inx rp => Laws.RoundTrip.inx rp
  | .inr r => Laws.RoundTrip.inr r
  | .dcr r => Laws.RoundTrip.dcr r
  | .mvi r d8 => Laws.RoundTrip.mvi r d8
  | .rlc => Laws.RoundTrip.rlc
  | .invalid op => Laws.RoundTrip.invalid op
  | .dad rp => Laws.RoundTrip.dad rp
  | .ldax rp => Laws.RoundTrip.ldax rp
  | .dcx rp => Laws.RoundTrip.dcx rp
  | .rrc => Laws.RoundTrip.rrc
  | .ral => Laws.RoundTrip.ral
  | .rar => Laws.RoundTrip.rar
  | .shld a16 => Laws.RoundTrip.shld a16
  | .daa => Laws.RoundTrip.daa
  | .lhld a16 => Laws.RoundTrip.lhld a16
  | .cma => Laws.RoundTrip.cma
  | .sta a16 => Laws.RoundTrip.sta a16
  | .stc => Laws.RoundTrip.stc
  | .lda a16 => Laws.RoundTrip.lda a16
  | .cmc => Laws.RoundTrip.cmc
  | .mov dst src => Laws.RoundTrip.mov dst src
  | .add r => Laws.RoundTrip.add r
  | .adc r => Laws.RoundTrip.adc r
  | .sub r => Laws.RoundTrip.sub r
  | .sbb r => Laws.RoundTrip.sbb r
  | .ana r => Laws.RoundTrip.ana r
  | .xra r => Laws.RoundTrip.xra r
  | .ora r => Laws.RoundTrip.ora r
  | .cmp r => Laws.RoundTrip.cmp r
  | .rnz => Laws.RoundTrip.rnz
  | .pop rp => Laws.RoundTrip.pop rp
  | .jnz a16 => Laws.RoundTrip.jnz a16
  | .jmp a16 => Laws.RoundTrip.jmp a16
  | .cnz a16 => Laws.RoundTrip.cnz a16
  | .push rp => Laws.RoundTrip.push rp
  | .adi d8 => Laws.RoundTrip.adi d8
  | .rst n => Laws.RoundTrip.rst n
  | .rz => Laws.RoundTrip.rz
  | .ret => Laws.RoundTrip.ret
  | .jz a16 => Laws.RoundTrip.jz a16
  | .cz a16 => Laws.RoundTrip.cz a16
  | .call a16 => Laws.RoundTrip.call a16
  | .aci d8 => Laws.RoundTrip.aci d8
  | .rnc => Laws.RoundTrip.rnc
  | .jnc a16 => Laws.RoundTrip.jnc a16
  | .out port => Laws.RoundTrip.out port
  | .cnc a16 => Laws.RoundTrip.cnc a16
  | .sui d8 => Laws.RoundTrip.sui d8
  | .rc => Laws.RoundTrip.rc
  | .jc a16 => Laws.RoundTrip.jc a16
  | .inp port => Laws.RoundTrip.inp port
  | .cc a16 => Laws.RoundTrip.cc a16
  | .sbi d8 => Laws.RoundTrip.sbi d8
  | .xthl => Laws.RoundTrip.xthl
  | .ani d8 => Laws.RoundTrip.ani d8
  | .pchl => Laws.RoundTrip.pchl
  | .xchg => Laws.RoundTrip.xchg
  | .xri d8 => Laws.RoundTrip.xri d8
  | .jp a16 => Laws.RoundTrip.jp a16
  | .di => Laws.RoundTrip.di
  | .ori d8 => Laws.RoundTrip.ori d8
  | .sphl => Laws.RoundTrip.sphl
  | .jm a16 => Laws.RoundTrip.jm a16
  | .ei => Laws.RoundTrip.ei
  | .cpi d8 => Laws.RoundTrip.cpi d8

/-- Settles O11, by the round trip of each constructor. -/
theorem decodeOfEncodeIsTheInstruction : Obligations.DecodeOfEncodeIsTheInstruction :=
  fun i rest hwf => decode_encode i hwf rest

/-- The encoding of a well-formed instruction, written out as bytes, decodes to it. -/
theorem decodesTo_of_encode {i : Instr} {bytes : List Byte} (hwf : WellFormed i) (h : encode i = bytes) :
    DecodesTo bytes i := by
  have hd := decode_encode i hwf []
  rwa [List.append_nil, h] at hd

/-! ### From bytes to an instruction and back -/

/-- Bytes that decode are the opcode byte and as many bytes after it as its length takes, then the bytes left. -/
theorem decode_eq_ok {bytes rest : List Byte} {i : Instr} (h : decode bytes = .ok (i, rest)) :
    ∃ op lo hi, i = decodeOpcode op lo hi ∧ bytes = [op, lo, hi].take (opcodeLength op) ++ rest := by
  match bytes with
  | [] => cases h
  | op :: tail =>
    rcases opcodeLength_cases op with hl | hl | hl <;> simp only [decode, hl] at h
    · cases h
      exact ⟨op, 0, 0, rfl, by rw [hl]; rfl⟩
    · match tail, h with
      | lo :: _, rfl => exact ⟨op, lo, 0, rfl, by rw [hl]; rfl⟩
    · match tail, h with
      | lo :: hi :: _, rfl => exact ⟨op, lo, hi, rfl, by rw [hl]; rfl⟩

/-- Settles O12: what was read is `decodeOpcode` of the first bytes, which encodes to just those. -/
theorem encodeOfDecodeIsTheBytes : Obligations.EncodeOfDecodeIsTheBytes := by
  intro bytes rest i h
  obtain ⟨op, lo, hi, rfl, rfl⟩ := decode_eq_ok h
  exact ⟨decodeOpcode_wellFormed op lo hi, by rw [encode_decodeOpcode]⟩

/-- Settles O13, each word by evaluation. -/
theorem sampleWordsDecode : Obligations.SampleWordsDecode :=
  ⟨rfl, rfl, rfl, rfl, rfl, rfl, rfl, rfl, rfl, rfl, rfl⟩

/-! ### The undefined bytes and the length -/

theorem isInvalid_iff {i : Instr} : isInvalid i = true ↔ ∃ op, i = .invalid op := by
  cases i <;> simp [isInvalid]

/-- `invalid` carries the opcode byte it was read from. -/
theorem op_of_decodeOpcode_eq_invalid {op lo hi op' : Byte} (h : decodeOpcode op lo hi = .invalid op') : op' = op := by
  have hlen : opcodeLength op = 1 := by rw [← decodeOpcode_length op lo hi, h]; rfl
  have henc : encode (.invalid op') = [op] := by rw [← h, encode_decodeOpcode, hlen]; rfl
  exact List.singleton_inj.mp henc

/-- A byte of R66's table decodes to `invalid` of itself. -/
theorem decodeOpcode_eq_invalid_iff (op lo hi : Byte) :
    decodeOpcode op lo hi = .invalid op ↔ op ∈ undefinedOpcodes := by
  rw [← List.contains_iff_mem, ← decodeOpcode_isInvalid op lo hi, isInvalid_iff]
  constructor
  · exact fun h => ⟨op, h⟩
  · rintro ⟨op', h⟩
    rw [h, op_of_decodeOpcode_eq_invalid h]

theorem defaultParams_implements_iff (op : Byte) : defaultParams.implements op = true ↔ op ∉ undefinedOpcodes := by
  simp [Params.implements, defaultParams]

/-- Settles O14: `invalid` is read for the bytes of the table only, and carries the byte it was read from. -/
theorem undefinedBytesAreExactlyTheTable : Obligations.UndefinedBytesAreExactlyTheTable := by
  refine ⟨rfl, by decide, fun op lo hi => ⟨(decodeOpcode_eq_invalid_iff op lo hi).mpr, ?_,
    defaultParams_implements_iff op⟩⟩
  intro hop op' h
  obtain rfl := op_of_decodeOpcode_eq_invalid h
  exact hop ((decodeOpcode_eq_invalid_iff op' lo hi).mp h)

/-- Settles O15, by the model's laws of the length and the encoding of what was read. -/
theorem opcodeFixesTheLength : Obligations.OpcodeFixesTheLength := by
  intro op lo hi
  have hrange : 1 ≤ opcodeLength op ∧ opcodeLength op ≤ 3 := by
    rcases opcodeLength_cases op with hl | hl | hl <;> simp [hl]
  refine ⟨decodeOpcode_length op lo hi, hrange.1, hrange.2, ?_⟩
  rw [encode_decodeOpcode, List.length_take]
  exact Nat.min_eq_left hrange.2

end Sys2Proof.Machine
end

section
/-! SUPPORT. Proofs of the statements about reset, construction, memory and the operands: O1 to O4, O7, O8, O10, O21. -/

namespace Sys2Proof.Machine

/-! ### Reset -/

theorem mkWord_zero : mkWord 0 0 = 0 := by decide

/-- Settles O1: `reset()` is the reset state over the kept memory, parameters and environment. -/
theorem resetGivesEveryFieldItsResetValue : Obligations.ResetGivesEveryFieldItsResetValue :=
  fun _ => ⟨⟨rfl, rfl, rfl, rfl, rfl, rfl, rfl, mkWord_zero, mkWord_zero, mkWord_zero, rfl, rfl⟩,
    ⟨rfl, rfl, rfl, rfl, rfl⟩, ⟨rfl, rfl, rfl, rfl⟩, ⟨rfl, rfl, rfl, rfl⟩⟩

/-- Settles O2: the reset state's memory lists no byte, and loading no image lists none. -/
theorem resetStateIsAConstructedCore : Obligations.ResetStateIsAConstructedCore :=
  ⟨fun _ => rfl, rfl, rfl, rfl⟩

/-- `reset()` keeps the quota and the memory, and its counter 0 is below the period of any legal quota. -/
theorem inv_hostReset {s : State} (hq : s.params.wf) (hm : s.mem.wf = true) : (hostReset s).Inv :=
  ⟨hq, hm, Nat.div_pos hq Nat.two_pos, rfl⟩

/-- Settles O21: the reset state is what `reset()` makes of itself. -/
theorem resetHasTheInvariant : Obligations.ResetHasTheInvariant :=
  ⟨inv_hostReset (s := State.reset) (by decide) rfl, fun _ => inv_hostReset⟩

/-! ### Construction -/

/-- The core that legal arguments construct. -/
theorem construct_of_legal {p : Params} {image : List Byte} (inputs : List Byte) (hp : p.wf)
    (hlen : image.length ≤ 65536) :
    construct p image inputs =
      .next { State.reset with params := p, mem := Memory.load [] 0 image, portInputs := inputs } := by
  rw [construct, if_neg (Nat.not_lt.mpr hp), if_neg (Nat.not_lt.mpr hlen)]

/-- The image loaded at 0 over a memory of zeros: byte `n` of it, and 0x00 beyond. -/
theorem Memory.read_load_nil (image : List Byte) (n : Nat) : (Memory.load [] 0 image).read n = image.getD n 0x00 := by
  rw [Memory.read_load, Nat.zero_add]
  by_cases hn : n < image.length
  · rw [if_pos ⟨Nat.zero_le n, hn⟩]
    rfl
  · rw [if_neg (fun h => hn h.2), List.getD_eq_default _ _ (Nat.not_lt.mp hn)]
    rfl

/-- Settles O3, by what a loaded image reads as and the canonical form it has. -/
theorem constructionLoadsTheImage : Obligations.ConstructionLoadsTheImage := by
  intro p image inputs hp hlen
  exact ⟨_, construct_of_legal inputs hp hlen, fun a => Memory.read_load_nil image a.toNat,
    Memory.wf_load [] image 0 (by omega) rfl, rfl⟩

/-- Settles O4: the quota is looked at first, then the image. -/
theorem constructionRefusesBadArguments : Obligations.ConstructionRefusesBadArguments := by
  intro p image inputs
  constructor
  · intro hp
    rw [construct, if_pos (Nat.not_le.mp hp)]
  · intro hp hlen
    rw [construct, if_neg (Nat.not_lt.mpr hp), if_pos hlen]

/-! ### Memory -/

/-- Settles O7, by the laws of the canonical form; a number below 65536 is an address. -/
theorem canonicalMemoryIsKeptAndUnique : Obligations.CanonicalMemoryIsKeptAndUnique := by
  refine ⟨fun _ addr v => Memory.wf_writeByte addr v, fun m m' hm hm' h => Memory.ext_of_wfFrom hm hm' fun n hn => ?_⟩
  have hread := h (BitVec.ofNat 16 n)
  rwa [Memory.readByte, Memory.readByte, BitVec.toNat_ofNat, Nat.mod_eq_of_lt hn] at hread

theorem State.readByte_writeByte_same (s : State) (x : Word) (v : Byte) : (s.writeByte x v).readByte x = v :=
  s.mem.readByte_writeByte_same x v

/-- Settles O8: the fetch reads its opcode from the memory the store left. -/
theorem storeIsSeenByTheNextFetch : Obligations.StoreIsSeenByTheNextFetch := by
  intro s op himpl
  have hop : (s.writeByte s.pc op).readByte (s.writeByte s.pc op).pc = op := s.readByte_writeByte_same s.pc op
  rw [State.fetchInstr_of_implements _ (by rw [hop]; exact himpl), hop]
  rfl

/-! ### Operands -/

/-- Settles O10, each operand form by its definition. -/
theorem operandCodesSelectTheirRegister : Obligations.OperandCodesSelectTheirRegister :=
  fun _ _ _ => ⟨⟨⟨rfl, rfl, rfl, rfl, rfl, rfl, rfl, rfl⟩, ⟨rfl, rfl, rfl, rfl, rfl, rfl, rfl, rfl⟩⟩,
    ⟨⟨rfl, rfl, rfl, rfl⟩, ⟨rfl, rfl, rfl, rfl⟩⟩, ⟨rfl, rfl⟩⟩

end Sys2Proof.Machine
end

section
/-! SUPPORT. Proofs of the statements about one step: the fetch and the crash (O16, O18, O19), the invariant (O20), what
no instruction reads (O22, O26), the bytes stored (O25) and the scheduler (O27 to O31). -/

namespace Sys2Proof.Machine

/-! ### The fetch, the crash, and totality -/

theorem step_of_running {s : State} (hc : s.crashed = false) :
    step s = finish (exec s.fetchInstr.1 s.fetchInstr.2) := by
  rw [step, if_neg (by simp [hc])]

/-- Settles O16: the bytes at `PC` fix the instruction fetched and how far `PC` moves. -/
theorem stepRunsTheFetchedInstruction : Obligations.StepRunsTheFetchedInstruction := by
  intro s i rest hc himpl hdec
  obtain rfl := decode_three hdec
  rw [step_of_running hc, State.fetchInstr_of_implements s himpl, decodeOpcode_length]

/-- Settles O18, by the crash that the step and the iteration answer at an unimplemented byte. -/
theorem invalidOpcodeCrashes : Obligations.InvalidOpcodeCrashes := by
  refine ⟨fun _ _ => rfl, fun s index hc himpl => ?_⟩
  have hstep := step_of_not_implements hc himpl
  refine ⟨hstep, ?_⟩
  simp only [iteration, hstep, State.iterationResult, hc, himpl, Bool.false_eq_true, if_false]
  rfl

theorem step_total (s : State) : ∃ t, step s = .next t := by
  cases hc : s.crashed with
  | true => exact ⟨s, step_of_crashed hc⟩
  | false => exact ⟨_, by rw [step_of_running hc, exec_eq_effect, finish]⟩

/-- An iteration leaves the state of the step, with its result beside it. -/
theorem iteration_of_step {s t : State} (index : Nat) (h : step s = .next t) :
    iteration index s = .next (s.iterationResult index, t) := by
  rw [iteration, h]

/-- Settles O19: every arm of `exec` answers a next state, and so does what is made of it. -/
theorem nothingFaultsOrRefuses : Obligations.NothingFaultsOrRefuses := by
  refine ⟨fun i s => ⟨_, exec_eq_effect i s⟩, step_total, fun s index => ?_⟩
  obtain ⟨t, ht⟩ := step_total s
  exact ⟨_, t, iteration_of_step index ht⟩

/-! ### The invariant -/

/-- What fetching and executing an instruction leave alone. -/
theorem fetched_exec_keeps {s u : State} (h : exec s.fetchInstr.1 s.fetchInstr.2 = .next u) :
    u.params = s.params ∧ u.parity = s.parity ∧ u.instructionCounter = s.instructionCounter ∧
      u.interruptAlternate = s.interruptAlternate := by
  simpa using exec_keeps h

/-- From a counter below the period, the count and check give the next number modulo the period. -/
theorem State.schedule_counter_eq_mod {s : State} (h : s.instructionCounter < s.checkPeriod) :
    s.schedule.instructionCounter = (s.instructionCounter + 1) % s.checkPeriod := by
  rw [State.schedule_counter]
  split
  · next heq => rw [heq, Nat.mod_self]
  · next hne => rw [Nat.mod_eq_of_lt (by omega)]

/-- An executed instruction keeps the invariant. -/
theorem inv_of_executed {s u : State} (hinv : s.Inv) (hu : exec s.fetchInstr.1 s.fetchInstr.2 = .next u) : u.Inv := by
  obtain ⟨hq, hmem, hcount, hpar⟩ := hinv
  obtain ⟨hparams, hparity, hcounter, _⟩ := fetched_exec_keeps hu
  refine ⟨by rw [hparams]; exact hq, exec_mem_wf hu (by simpa using hmem), ?_, hparity.trans hpar⟩
  rw [hcounter, State.checkPeriod, hparams]
  exact hcount

/-- The scheduler keeps the invariant: the counter after it is a remainder modulo the period. -/
theorem State.inv_schedule {s : State} (hinv : s.Inv) : s.schedule.Inv := by
  obtain ⟨hq, hmem, hcount, hpar⟩ := hinv
  obtain ⟨hparams, hparity, _⟩ := s.schedule_keeps
  refine ⟨by rw [hparams]; exact hq, State.schedule_mem_wf hmem, ?_, hparity.trans hpar⟩
  rw [State.schedule_counter_eq_mod hcount, State.checkPeriod, State.checkPeriod, hparams]
  exact Nat.mod_lt _ (Nat.div_pos hq Nat.two_pos)

/-- Settles O20, by the three things a step can be: nothing, the crash, or an instruction and the scheduler. -/
theorem stepKeepsTheInvariant : Obligations.StepKeepsTheInvariant := by
  intro s t hinv hstep
  rcases step_cases hstep with ⟨_, rfl⟩ | ⟨_, _, rfl⟩ | ⟨_, _, u, hu, _, rfl⟩
  · exact hinv
  · exact hinv
  · exact State.inv_schedule (inv_of_executed hinv hu)

/-- The three things the scheduler can do: count, restart the count, or inject and restart it. -/
theorem State.schedule_cases (s : State) :
    (s.instructionCounter + 1 ≠ s.params.quota / 2 ∧
      s.schedule = { s with instructionCounter := s.instructionCounter + 1 }) ∨
    (s.instructionCounter + 1 = s.params.quota / 2 ∧ s.interruptEnabled = false ∧
      s.schedule = { s with instructionCounter := 0 }) ∨
    (s.instructionCounter + 1 = s.params.quota / 2 ∧ s.interruptEnabled = true ∧
      s.schedule = { s.inject with instructionCounter := 0 }) := by
  by_cases hcheck : s.instructionCounter + 1 = s.params.quota / 2
  · by_cases hen : s.interruptEnabled = true
    · exact .inr (.inr ⟨hcheck, hen, State.schedule_of_enabled hcheck hen⟩)
    · have hen : s.interruptEnabled = false := Bool.eq_false_of_not_eq_true hen
      exact .inr (.inl ⟨hcheck, hen, State.schedule_of_disabled hcheck hen⟩)
  · exact .inl ⟨hcheck, State.schedule_of_ne hcheck⟩

/-! ### What no instruction reads -/

/-- The state with other values in the fields that only IN and OUT (the ports) or nothing at all (`parity`) looks at. -/
def State.withUnread (s : State) (p : Bool) (inputs : List Byte) (events : List PortEvent) : State :=
  { s with parity := p, portInputs := inputs, portEvents := events }

section
variable (s : State) (p : Bool) (inputs : List Byte) (events : List PortEvent) (cond : Cond) (target : Word)

theorem State.holds_withUnread : (s.withUnread p inputs events).holds cond = s.holds cond := by cases cond <;> rfl

theorem State.jumpIf_withUnread :
    (s.withUnread p inputs events).jumpIf cond target = (s.jumpIf cond target).withUnread p inputs events := by
  rw [State.jumpIf, State.holds_withUnread, State.jumpIf, apply_ite (State.withUnread · p inputs events)]
  rfl

theorem State.callIf_withUnread :
    (s.withUnread p inputs events).callIf cond target = (s.callIf cond target).withUnread p inputs events := by
  rw [State.callIf, State.holds_withUnread, State.callIf, apply_ite (State.withUnread · p inputs events)]
  rfl

theorem State.retIf_withUnread :
    (s.withUnread p inputs events).retIf cond = (s.retIf cond).withUnread p inputs events := by
  rw [State.retIf, State.holds_withUnread, State.retIf, apply_ite (State.withUnread · p inputs events)]
  rfl

end

/-- An instruction that is neither IN nor OUT does the same whatever those fields hold: its operands are the same
places, and its condition the same flag, in both states. -/
theorem effect_withUnread {i : Instr} (hin : ∀ port, i ≠ .inp port) (hout : ∀ port, i ≠ .out port) (s : State)
    (p : Bool) (inputs : List Byte) (events : List PortEvent) :
    effect i (s.withUnread p inputs events) = (effect i s).withUnread p inputs events := by
  cases i with
  | inp port => exact absurd rfl (hin port)
  | out port => exact absurd rfl (hout port)
  | mov dst src => cases dst <;> cases src <;> rfl
  | mvi r _ | inr r | dcr r | add r | adc r | sub r | sbb r | ana r | xra r | ora r | cmp r => cases r <;> rfl
  | lxi rp _ | inx rp | dcx rp | dad rp | push rp | pop rp | stax rp | ldax rp => cases rp <;> rfl
  | jnz _ | jz _ | jnc _ | jc _ | jp _ | jm _ => exact s.jumpIf_withUnread p inputs events _ _
  | cnz _ | cz _ | cnc _ | cc _ => exact s.callIf_withUnread p inputs events _ _
  | rnz | rz | rnc | rc => exact s.retIf_withUnread p inputs events _
  | _ => rfl

/-- So it leaves them as they are: run it in the state with the values they have. -/
theorem effect_keeps_ports {i : Instr} (hin : ∀ port, i ≠ .inp port) (hout : ∀ port, i ≠ .out port) (s : State) :
    (effect i s).portInputs = s.portInputs ∧ (effect i s).portEvents = s.portEvents := by
  have h : effect i s = (effect i s).withUnread s.parity s.portInputs s.portEvents :=
    effect_withUnread hin hout s s.parity s.portInputs s.portEvents
  rw [h]
  exact ⟨rfl, rfl⟩

/-- Settles O26: IN and OUT apart, the ports are among what an instruction neither reads nor writes. -/
theorem onlyPortInstructionsTouchThePorts : Obligations.OnlyPortInstructionsTouchThePorts := by
  intro i s t inputs events hexec hin
  rw [exec_eq_effect, Host.Outcome.next.injEq] at hexec
  subst hexec
  constructor
  · by_cases hout : ∀ port, i ≠ .out port
    · exact (effect_keeps_ports hin hout s).1
    · obtain ⟨port, rfl⟩ := not_forall_not.mp hout
      rfl
  · intro hout
    refine ⟨(effect_keeps_ports hin hout s).2, ?_⟩
    obtain ⟨_, hpar, _⟩ := exec_keeps (exec_eq_effect i s)
    rw [exec_eq_effect]
    refine congrArg Host.Outcome.next ?_
    calc effect i { s with portInputs := inputs, portEvents := events }
      _ = (effect i s).withUnread s.parity inputs events := effect_withUnread hin hout s s.parity inputs events
      _ = { effect i s with portInputs := inputs, portEvents := events } := by rw [← hpar]; rfl

/-- No instruction reads `parity`. -/
theorem effect_parity (i : Instr) (s : State) (p : Bool) :
    effect i { s with parity := p } = { effect i s with parity := p } := by
  by_cases hin : ∀ port, i ≠ .inp port
  · by_cases hout : ∀ port, i ≠ .out port
    · obtain ⟨hinputs, hevents⟩ := effect_keeps_ports hin hout s
      calc effect i { s with parity := p }
        _ = (effect i s).withUnread p s.portInputs s.portEvents := effect_withUnread hin hout s p _ _
        _ = { effect i s with parity := p } := by rw [← hinputs, ← hevents]; rfl
    · obtain ⟨port, rfl⟩ := not_forall_not.mp hout
      rfl
  · obtain ⟨port, rfl⟩ := not_forall_not.mp hin
    rfl

/-- Nor does the fetch of an implemented byte. -/
theorem State.fetchInstr_parity_update {s : State} (himpl : s.params.implements (s.readByte s.pc) = true) (p : Bool) :
    { s with parity := p }.fetchInstr = (s.fetchInstr.1, { s.fetchInstr.2 with parity := p }) := by
  rw [State.fetchInstr_of_implements s himpl, State.fetchInstr_of_implements { s with parity := p } himpl]
  rfl

/-- Nor the scheduler. -/
theorem State.schedule_parity_update (s : State) (p : Bool) :
    { s with parity := p }.schedule = { s.schedule with parity := p } := by
  rcases s.schedule_cases with ⟨hne, hs⟩ | ⟨heq, hen, hs⟩ | ⟨heq, hen, hs⟩ <;> rw [hs]
  · exact State.schedule_of_ne (s := { s with parity := p }) hne
  · exact State.schedule_of_disabled (s := { s with parity := p }) heq hen
  · exact State.schedule_of_enabled (s := { s with parity := p }) heq hen

/-- Settles O22, by the three things a step can be: none of its parts reads or writes `parity`. -/
theorem parityIsNeverReadNorWritten : Obligations.ParityIsNeverReadNorWritten := by
  refine fun s p => ⟨fun t hstep => ?_, rfl⟩
  rcases step_cases hstep with ⟨hc, rfl⟩ | ⟨hc, himpl, rfl⟩ | ⟨hc, himpl, u, hu, _, rfl⟩
  · exact ⟨rfl, step_of_crashed hc⟩
  · exact ⟨rfl, step_of_not_implements hc himpl⟩
  · obtain ⟨_, hsched, _⟩ := u.schedule_keeps
    obtain ⟨_, hexec, _⟩ := fetched_exec_keeps hu
    refine ⟨hsched.trans hexec, ?_⟩
    rw [exec_eq_effect, Host.Outcome.next.injEq] at hu
    subst hu
    rw [(step_of_implements (s := { s with parity := p }) hc himpl).1, State.fetchInstr_parity_update himpl,
      effect_parity, State.schedule_parity_update]

/-! ### The bytes an instruction stores -/

theorem State.readByte_writeByte_ne (s : State) {x y : Word} (v : Byte) (h : y ∉ [x]) :
    (s.writeByte x v).readByte y = s.readByte y :=
  s.mem.readByte_writeByte_ne v (by simpa using h)

theorem State.readByte_writeWord_ne (s : State) {x y : Word} (v : Word) (h : y ∉ wordAt x) :
    (s.writeWord x v).readByte y = s.readByte y := by
  obtain ⟨hlow, hhigh⟩ : y ≠ x ∧ y ≠ x + 1 := by simpa [wordAt] using h
  exact s.mem.readByte_writeWord_ne v hlow hhigh

theorem State.readByte_writeOperand_ne (s : State) {r : Operand8} {y : Word} (v : Byte)
    (h : y ∉ Operand8.storedAt s r) :
    (s.writeOperand r v).readByte y = s.readByte y := by
  cases r with
  | m => exact s.readByte_writeByte_ne v h
  | _ => rfl

/-- A call pushes where its condition holds and stores nothing where it fails. -/
theorem State.readByte_callIf_ne (s : State) {cond : Cond} {y : Word} (target : Word)
    (h : y ∉ if s.holds cond then wordAt (s.sp - 2) else []) : (s.callIf cond target).readByte y = s.readByte y := by
  rw [State.callIf]
  split
  · next hcond => exact s.readByte_writeWord_ne s.pc (by simpa only [hcond, if_true] using h)
  · rfl

/-- An instruction whose frame has no memory changes no byte. -/
theorem readByte_effect_of_not_mayWrite {i : Instr} (h : Field.mem ∉ mayWrite i) (s : State) (y : Word) :
    (effect i s).readByte y = s.readByte y :=
  congrArg (Memory.readByte · y) (effect_writesOnly i s .mem h)

theorem RegPair.mem_not_mem_fields (rp : RegPair) : Field.mem ∉ RegPair.fields rp := by cases rp <;> decide

theorem StackPair.mem_not_mem_fields (rp : StackPair) : Field.mem ∉ StackPair.fields rp := by cases rp <;> decide

/-- The bytes outside `storedAddrs`, by the store each form makes; every other form has no memory in its frame. -/
theorem readByte_effect_ne {i : Instr} {s : State} {y : Word} (h : y ∉ storedAddrs i s) :
    (effect i s).readByte y = s.readByte y := by
  cases i with
  | mov _ _ | mvi _ _ | inr _ | dcr _ => exact s.readByte_writeOperand_ne _ h
  | sta _ | stax _ => exact s.readByte_writeByte_ne _ h
  | shld _ | push _ | call _ | rst _ | xthl => exact s.readByte_writeWord_ne _ h
  | cnz _ | cz _ | cnc _ | cc _ => exact s.readByte_callIf_ne _ h
  | lxi rp _ | inx rp | dcx rp =>
    exact readByte_effect_of_not_mayWrite (by simp [mayWrite, RegPair.mem_not_mem_fields rp]) s y
  | pop rp =>
    exact readByte_effect_of_not_mayWrite (by simp [mayWrite, StackPair.mem_not_mem_fields rp]) s y
  | _ => exact readByte_effect_of_not_mayWrite (by simp [mayWrite]) s y

/-- Settles O25, by the bytes each form stores. -/
theorem instructionsStoreOnlyTheirBytes : Obligations.InstructionsStoreOnlyTheirBytes := by
  intro i s t addr hexec haddr
  rw [exec_eq_effect, Host.Outcome.next.injEq] at hexec
  exact hexec ▸ readByte_effect_ne haddr

/-! ### The scheduler -/

/-- Settles O27: the instruction leaves the counter and the quota alone, and the scheduler's three cases follow. -/
theorem schedulerCountsAndChecks : Obligations.SchedulerCountsAndChecks := by
  intro s hc himpl
  obtain ⟨hparams, _, hcounter, _⟩ := fetched_exec_keeps (exec_eq_effect s.fetchInstr.1 s.fetchInstr.2)
  rw [(step_of_implements hc himpl).1, ← hcounter, ← hparams]
  refine ⟨_, exec_eq_effect _ _, fun hne => ?_, fun heq hen => ?_, fun heq hen => ?_⟩
  · rw [State.schedule_of_ne hne]
  · rw [State.schedule_of_disabled heq hen]
  · rw [State.schedule_of_enabled heq hen]

/-- Settles O28: the injection is a push of `PC` and four field writes. -/
theorem injectionPushesPcAndGoesToTheVector : Obligations.InjectionPushesPcAndGoesToTheVector := by
  intro s other
  refine ⟨rfl, ?low, ?high, s.readByte_push16_ne s.pc⟩
  case low => exact (congrArg BitVec.toNat (s.readByte_push16_low s.pc)).trans (loByte_toNat s.pc)
  case high => exact (congrArg BitVec.toNat (s.readByte_push16_high s.pc)).trans (hiByte_toNat s.pc)

/-- The scheduler changes the alternation only where it injects. -/
theorem State.schedule_of_alternate_ne {s : State} (h : s.schedule.interruptAlternate ≠ s.interruptAlternate) :
    s.instructionCounter + 1 = s.params.quota / 2 ∧ s.schedule = { s.inject with instructionCounter := 0 } := by
  rcases s.schedule_cases with ⟨_, hs⟩ | ⟨_, _, hs⟩ | ⟨hcheck, _, hs⟩
  · exact absurd (by rw [hs]) h
  · exact absurd (by rw [hs]) h
  · exact ⟨hcheck, hs⟩

/-- Settles O29: only the scheduler of an executed instruction can change the alternation, by injecting. -/
theorem alternationChangesOnlyByInjection : Obligations.AlternationChangesOnlyByInjection := by
  intro s t hstep hne
  rcases step_cases hstep with ⟨_, rfl⟩ | ⟨_, _, rfl⟩ | ⟨_, _, u, hu, hcu, rfl⟩
  · exact absurd rfl hne
  · exact absurd rfl hne
  · obtain ⟨hparams, _, hcounter, halt⟩ := fetched_exec_keeps hu
    rw [← halt] at hne
    obtain ⟨hcheck, hsched⟩ := State.schedule_of_alternate_ne hne
    rw [hsched, ← halt, ← hcounter, ← hparams]
    exact ⟨rfl, rfl, rfl, hcu, hcheck⟩

/-! ### The counter over many steps -/

theorem step_params {s t : State} (h : step s = .next t) : t.params = s.params := by
  rcases step_cases h with ⟨_, rfl⟩ | ⟨_, _, rfl⟩ | ⟨_, _, u, hu, _, rfl⟩
  · rfl
  · rfl
  · exact u.schedule_keeps.1.trans (fetched_exec_keeps hu).1

theorem run_of_crashed {s : State} (hc : s.crashed = true) (n : Nat) : Host.Core.run Sys2Proof.core n s = .next s :=
  run_of_step_self (step_of_crashed hc) n

/-- A step that ends running has counted one instruction. -/
theorem step_counter {s t : State} (hinv : s.Inv) (hstep : step s = .next t) (hrun : t.crashed = false) :
    t.instructionCounter = (s.instructionCounter + 1) % (s.params.quota / 2) := by
  rcases step_cases hstep with ⟨hc, rfl⟩ | ⟨_, _, rfl⟩ | ⟨_, _, u, hu, _, rfl⟩
  · simp [hc] at hrun
  · simp at hrun
  · obtain ⟨hparams, _, hcounter, _⟩ := fetched_exec_keeps hu
    obtain ⟨_, _, hcount, _⟩ := inv_of_executed hinv hu
    rw [State.schedule_counter_eq_mod hcount, State.checkPeriod, hcounter, hparams]

/-- Settles O30, by induction on the number of steps: a run that ends running has not crashed on the way. -/
theorem counterIsTheStepCountModuloThePeriod : Obligations.CounterIsTheStepCountModuloThePeriod := by
  intro n
  induction n with
  | zero =>
    intro s t hinv hrun _
    obtain rfl : s = t := Host.Outcome.next.inj hrun
    obtain ⟨_, _, hcount, _⟩ := hinv
    exact (Nat.mod_eq_of_lt hcount).symm
  | succ n ih =>
    intro s t hinv hrun hc
    obtain ⟨u, hstep⟩ := step_total s
    rw [run_succ n hstep] at hrun
    have hcu : u.crashed = false := by
      by_contra hcu
      have hut : u = t := Host.Outcome.next.inj ((run_of_crashed (by simpa using hcu) n).symm.trans hrun)
      exact hcu (hut ▸ hc)
    rw [ih u t (stepKeepsTheInvariant s u hinv hstep) hrun hc, step_counter hinv hstep hcu, step_params hstep,
      Nat.mod_add_mod]
    congr 1
    omega

/-! ### The return from an injection -/

/-- The word on the stack after an injection is the interrupted address. -/
theorem State.popValue_inject (s : State) : s.inject.popValue = s.pc := s.popValue_push16 s.pc

/-- Settles O31: RET pops what the injection pushed, and `SP` comes back. -/
theorem retReturnsFromAnInjection : Obligations.RetReturnsFromAnInjection := by
  intro s
  have hsp : s.sp - 2 + 2 = s.sp := by bv_omega
  show Host.Outcome.next { s.inject with sp := s.sp - 2 + 2, pc := s.inject.popValue } = _
  rw [State.popValue_inject, hsp]
  rfl

end Sys2Proof.Machine
end

section
/-! SUPPORT. Proofs of the statements about the host's operations: `run_frame` (O32) and `step()` (O33). -/

namespace Sys2Proof.Machine

/-! ### The result of one iteration -/

theorem State.iterationResult_of_crashed {s : State} (index : Nat) (hc : s.crashed = true) :
    s.iterationResult index = .noop := by
  rw [State.iterationResult, if_pos hc]

theorem State.iterationResult_of_implements {s : State} (index : Nat) (hc : s.crashed = false)
    (himpl : s.params.implements (s.readByte s.pc) = true) : s.iterationResult index = .executed := by
  rw [State.iterationResult, if_neg (by simp [hc]), if_pos himpl]

theorem State.iterationResult_of_not_implements {s : State} (index : Nat) (hc : s.crashed = false)
    (himpl : s.params.implements (s.readByte s.pc) = false) :
    s.iterationResult index = .crashed (s.crashDiagnostic index) := by
  rw [State.iterationResult, if_neg (by simp [hc]), if_neg (by simp [himpl])]

/-- Settles O33: the result is that of the iteration, and a running core's step ends crashed just where the byte is not
implemented. -/
theorem hostStepIsOneIteration : Obligations.HostStepIsOneIteration := by
  intro s t hstep
  refine ⟨_, iteration_of_step 0 hstep, ?_⟩
  cases hc : s.crashed with
  | true =>
    rw [State.iterationResult_of_crashed 0 hc]
    simp
  | false =>
    have hcrash := crashed_after_step_iff hc hstep
    cases himpl : s.params.implements (s.readByte s.pc) with
    | true =>
      have ht : t.crashed = false := by simpa [himpl] using hcrash
      rw [State.iterationResult_of_implements 0 hc himpl]
      simp [ht]
    | false =>
      have ht : t.crashed = true := hcrash.mpr himpl
      rw [State.iterationResult_of_not_implements 0 hc himpl]
      simp [ht, State.crashDiagnostic, eq_comm]

/-! ### The iteration that crashes -/

/-- The iteration `k` of a run from `s` crashes, in the state `u`. -/
def State.CrashesAt (s : State) (k : Nat) (u : State) : Prop :=
  Host.Core.run Sys2Proof.core k s = .next u ∧ u.crashed = false ∧ u.params.implements (u.readByte u.pc) = false

theorem State.crashesAt_succ_iff {s t u : State} {k : Nat} (hstep : step s = .next t) :
    s.CrashesAt (k + 1) u ↔ t.CrashesAt k u := by
  rw [State.CrashesAt, State.CrashesAt, run_succ k hstep]

/-- Every longer run ends in the crash. -/
theorem State.CrashesAt.run_eq {s u : State} {k n : Nat} (h : s.CrashesAt k u) (hkn : k < n) :
    Host.Core.run Sys2Proof.core n s = .next u.crash := by
  obtain ⟨n, rfl⟩ := Nat.exists_eq_succ_of_ne_zero (Nat.ne_zero_of_lt hkn)
  induction k generalizing s n with
  | zero =>
    obtain ⟨hrun, hc, himpl⟩ := h
    obtain rfl : s = u := Host.Outcome.next.inj hrun
    rw [run_succ n (step_of_not_implements hc himpl), run_of_crashed rfl]
  | succ k ih =>
    obtain ⟨t, hstep⟩ := step_total s
    rw [run_succ n hstep]
    obtain ⟨m, rfl⟩ : ∃ m, n = m + 1 := ⟨n - 1, by omega⟩
    exact ih ((State.crashesAt_succ_iff hstep).mp h) m (by omega)

/-- So a run that ends running has no iteration that crashes. -/
theorem State.CrashesAt.crashed_of_run {s t u : State} {k n : Nat} (h : s.CrashesAt k u) (hkn : k < n)
    (hrun : Host.Core.run Sys2Proof.core n s = .next t) : t.crashed = true := by
  obtain rfl : u.crash = t := Host.Outcome.next.inj ((h.run_eq hkn).symm.trans hrun)
  rfl

/-- At most one iteration of a run crashes. -/
theorem State.CrashesAt.unique {s u u' : State} {k k' : Nat} (h : s.CrashesAt k u) (h' : s.CrashesAt k' u') :
    k = k' ∧ u = u' := by
  have ⟨hrun, hc, _⟩ := h
  have ⟨hrun', hc', _⟩ := h'
  rcases Nat.lt_trichotomy k k' with hlt | rfl | hgt
  · simp [h.crashed_of_run hlt hrun'] at hc'
  · exact ⟨rfl, Host.Outcome.next.inj (hrun.symm.trans hrun')⟩
  · simp [h'.crashed_of_run hgt hrun] at hc

/-! ### The loop of `run_frame` -/

theorem frameLoop_of_crashed {s : State} (hc : s.crashed = true) (n index : Nat) (found : Option Diagnostic) :
    frameLoop n index found s = .next (found, s) := by
  induction n generalizing index with
  | zero => rfl
  | succ n ih => simp only [frameLoop, iteration_of_crashed index hc, ih]

/-- From a running core, `n` iterations either all execute and leave what was found, or one of them crashes and its
diagnostic is what is found. -/
theorem frameLoop_of_running {s : State} (hc : s.crashed = false) (n index : Nat) (found : Option Diagnostic) :
    ∃ t : State, Host.Core.run Sys2Proof.core n s = .next t ∧
      ((t.crashed = false ∧ frameLoop n index found s = .next (found, t)) ∨
        ∃ k u, k < n ∧ s.CrashesAt k u ∧ t.crashed = true ∧
          frameLoop n index found s = .next (some (u.crashDiagnostic (index + k)), t)) := by
  induction n generalizing index s with
  | zero => exact ⟨s, rfl, .inl ⟨hc, rfl⟩⟩
  | succ n ih =>
    cases himpl : s.params.implements (s.readByte s.pc) with
    | false =>
      have hstep := step_of_not_implements hc himpl
      refine ⟨s.crash, by rw [run_succ n hstep, run_of_crashed rfl], .inr ⟨0, s, n.succ_pos, ⟨rfl, hc, himpl⟩, rfl, ?_⟩⟩
      simp only [frameLoop, iteration_of_step index hstep, State.iterationResult_of_not_implements index hc himpl,
        frameLoop_of_crashed (State.crashed_crash s), Nat.add_zero]
    | true =>
      obtain ⟨u, hstep⟩ := step_total s
      have hcu : u.crashed = false := by simpa [himpl] using crashed_after_step_iff hc hstep
      have hloop : frameLoop (n + 1) index found s = frameLoop n (index + 1) found u := by
        simp only [frameLoop, iteration_of_step index hstep, State.iterationResult_of_implements index hc himpl]
      obtain ⟨t, hrun, hcases⟩ := ih hcu (index + 1)
      refine ⟨t, (run_succ n hstep).trans hrun, ?_⟩
      rcases hcases with ⟨ht, heq⟩ | ⟨k, v, hk, hv, ht, heq⟩
      · exact .inl ⟨ht, hloop.trans heq⟩
      · refine .inr ⟨k + 1, v, by omega, (State.crashesAt_succ_iff hstep).mpr hv, ht, hloop.trans ?_⟩
        rw [heq, Nat.add_assoc, Nat.add_comm 1 k]

/-- Settles O32, by the three things a frame can be: all no-ops, all executed, or one iteration that crashes. -/
theorem runFrameIsQuotaIterations : Obligations.RunFrameIsQuotaIterations := by
  intro s
  cases hc : s.crashed with
  | true =>
    refine ⟨.alreadyCrashed, s, ?_, run_of_crashed hc _, by simp, by simp [hc], fun diag => ⟨nofun, ?_⟩⟩
    · rw [runFrame, frameLoop_of_crashed hc]
      simp [hc]
    · rintro ⟨k, u, _, hrun, hcu, _, _⟩
      obtain rfl : s = u := Host.Outcome.next.inj ((run_of_crashed hc k).symm.trans hrun)
      simp [hc] at hcu
  | false =>
    obtain ⟨t, hrun, ⟨ht, hloop⟩ | ⟨k, u, hk, hu, ht, hloop⟩⟩ := frameLoop_of_running hc s.params.quota 0 none
    · refine ⟨.completed, t, ?_, hrun, by simp, by simp [ht], fun diag => ⟨nofun, ?_⟩⟩
      · rw [runFrame, hloop]
        simp [hc]
      · rintro ⟨k, u, hk, hrunk, hcu, himpl, _⟩
        simp [State.CrashesAt.crashed_of_run ⟨hrunk, hcu, himpl⟩ hk hrun] at ht
    · refine ⟨.crashed (u.crashDiagnostic k), t, ?_, hrun, by simp, by simp [ht], fun diag => ⟨?_, ?_⟩⟩
      · rw [runFrame, hloop, Nat.zero_add]
      · rintro ⟨⟩
        obtain ⟨hrunk, hcu, himpl⟩ := hu
        exact ⟨k, u, hk, hrunk, hcu, himpl, rfl⟩
      · rintro ⟨k', u', _, hrunk, hcu, himpl, rfl⟩
        obtain ⟨rfl, rfl⟩ := hu.unique ⟨hrunk, hcu, himpl⟩
        rfl

end Sys2Proof.Machine
end

section
/-! SUPPORT. Proofs of the statements about the stack (O35 to O41) and the transfers of control (O42 to O46). -/

namespace Sys2Proof.Machine

/-! ### The halves of the words that are moved -/

@[simp] theorem State.hiByte_bc (s : State) : hiByte s.bc = s.b := hiByte_mkWord _ _
@[simp] theorem State.loByte_bc (s : State) : loByte s.bc = s.c := loByte_mkWord _ _
@[simp] theorem State.hiByte_de (s : State) : hiByte s.de = s.d := hiByte_mkWord _ _
@[simp] theorem State.loByte_de (s : State) : loByte s.de = s.e := loByte_mkWord _ _
@[simp] theorem State.hiByte_hl (s : State) : hiByte s.hl = s.h := hiByte_mkWord _ _
@[simp] theorem State.loByte_hl (s : State) : loByte s.hl = s.l := loByte_mkWord _ _
@[simp] theorem State.hiByte_psw (s : State) : hiByte s.psw = s.a := hiByte_mkWord _ _
@[simp] theorem State.loByte_psw (s : State) : loByte s.psw = s.flagByte := loByte_mkWord _ _

@[simp] theorem Memory.hiByte_readWord (m : Memory) (x : Word) : hiByte (m.readWord x) = m.readByte (x + 1) :=
  hiByte_mkWord _ _

@[simp] theorem Memory.loByte_readWord (m : Memory) (x : Word) : loByte (m.readWord x) = m.readByte x :=
  loByte_mkWord _ _

@[simp] theorem State.hiByte_popValue (s : State) : hiByte s.popValue = s.mem.readByte (s.sp + 1) :=
  s.mem.hiByte_readWord s.sp

@[simp] theorem State.loByte_popValue (s : State) : loByte s.popValue = s.mem.readByte s.sp :=
  s.mem.loByte_readWord s.sp

/-! ### The flag byte -/

/-- Each flag stands in its bit (R82), over the 32 values of the five flags. -/
theorem State.flagByte_bits (s : State) :
    s.flagByte.getLsbD 7 = s.sign ∧ s.flagByte.getLsbD 6 = s.zero ∧ s.flagByte.getLsbD 5 = s.interruptEnabled ∧
      s.flagByte.getLsbD 4 = s.halfCarry ∧ s.flagByte.getLsbD 3 = false ∧ s.flagByte.getLsbD 2 = false ∧
      s.flagByte.getLsbD 1 = false ∧ s.flagByte.getLsbD 0 = s.carry := by
  rw [State.flagByte]
  generalize s.sign = sign
  generalize s.zero = zero
  generalize s.interruptEnabled = interruptEnabled
  generalize s.halfCarry = halfCarry
  generalize s.carry = carry
  revert sign zero interruptEnabled halfCarry carry
  decide

/-- Settles O35: the bits one by one, the pair as its halves, and the two bytes a push stores. -/
theorem flagByteLayout : Obligations.FlagByteLayout := by
  refine fun s => ⟨s.flagByte_bits, mkWord_toNat _ _, ?_, ?_⟩
  · rw [State.readByte_push16_low, State.loByte_psw]
  · rw [State.readByte_push16_high, State.hiByte_psw]

/-! ### PUSH and POP -/

/-- Settles O36, each pair by its arm of `exec`. -/
theorem pushStoresThePair : Obligations.PushStoresThePair :=
  ⟨⟨rfl, rfl, rfl, rfl⟩, fun _ => ⟨rfl, rfl, rfl, rfl⟩⟩

/-- Settles O37: the halves of the popped word are the two bytes at `SP`. -/
theorem popLoadsThePair : Obligations.PopLoadsThePair := by
  refine ⟨⟨rfl, rfl, rfl, rfl⟩, fun s => ⟨?bc, ?de, ?hl, ?psw⟩⟩
  all_goals simp only [exec, execPop, State.writeStackPair]
  case bc => simp only [State.setBC, State.hiByte_popValue, State.loByte_popValue]; rfl
  case de => simp only [State.setDE, State.hiByte_popValue, State.loByte_popValue]; rfl
  case hl => simp only [State.setHL, State.hiByte_popValue, State.loByte_popValue]; rfl
  case psw => simp only [State.setPSW, State.hiByte_popValue, State.loByte_popValue]; rfl

/-- A pair loaded with its own value changes nothing; for PSW, because each flag is read from the bit it is put in. -/
theorem State.writeStackPair_readStackPair (s : State) (rp : StackPair) :
    s.writeStackPair rp (s.readStackPair rp) = s := by
  cases rp with
  | bc => simp only [State.writeStackPair, State.readStackPair, State.setBC, State.hiByte_bc, State.loByte_bc]
  | de => simp only [State.writeStackPair, State.readStackPair, State.setDE, State.hiByte_de, State.loByte_de]
  | hl => simp only [State.writeStackPair, State.readStackPair, State.setHL, State.hiByte_hl, State.loByte_hl]
  | psw =>
    obtain ⟨hsign, hzero, hen, hhalf, _, _, _, hcarry⟩ := s.flagByte_bits
    simp only [State.writeStackPair, State.readStackPair, State.setPSW, State.hiByte_psw, State.loByte_psw, hsign,
      hzero, hen, hhalf, hcarry]

/-- No pair PUSH pushes reads memory. -/
theorem State.readStackPair_mem_update (s : State) (m : Memory) (rp : StackPair) :
    { s with mem := m }.readStackPair rp = s.readStackPair rp := by cases rp <;> rfl

/-- Settles O40: POP gets the pushed value back, and it is the pair's own. -/
theorem pushThenPopRestores : Obligations.PushThenPopRestores := by
  intro s rp
  refine ⟨s.push16 (s.readStackPair rp), rfl, ?_⟩
  have hown := State.writeStackPair_readStackPair { s with mem := (s.push16 (s.readStackPair rp)).mem } rp
  rw [s.readStackPair_mem_update (s.push16 (s.readStackPair rp)).mem rp] at hown
  rw [exec, execPop, State.popValue_push16, State.popped_push16, hown]

/-! ### XCHG, XTHL and SPHL -/

/-- Settles O38: each word written is given by its two halves. -/
theorem exchangeInstructions : Obligations.ExchangeInstructions := by
  refine ⟨⟨rfl, rfl⟩, fun s => ⟨?xchg, ?xthl⟩⟩
  case xchg =>
    simp only [exec, execXchg, State.setHL, State.setDE, State.hiByte_hl, State.loByte_hl, State.hiByte_de,
      State.loByte_de]
  case xthl =>
    simp only [exec, execXthl, State.setHL, State.writeWord, State.readWord, Memory.writeWord, Memory.hiByte_readWord,
      Memory.loByte_readWord, State.hiByte_hl, State.loByte_hl]

/-- Settles O39, by the arm of `exec`. -/
theorem sphlLoadsSp : Obligations.SphlLoadsSp := ⟨rfl, fun _ => rfl⟩

/-- Storing another word and then the old one leaves every byte as it was, also where the word wraps. -/
theorem Memory.readByte_writeWord_readWord (m : Memory) (x v y : Word) :
    ((m.writeWord x v).writeWord x (m.readWord x)).readByte y = m.readByte y := by
  rw [Memory.readByte_writeWord, Memory.readByte_writeWord, Memory.hiByte_readWord, Memory.loByte_readWord]
  split
  · next hhigh => rw [hhigh]
  · split
    · next hlow => rw [hlow]
    · rfl

/-- Settles O41: the second exchange finds in each place what the first one took from the other. -/
theorem exchangingTwiceRestores : Obligations.ExchangingTwiceRestores := by
  obtain ⟨_, hexec⟩ := exchangeInstructions
  refine fun s => ⟨⟨_, (hexec s).1, (hexec _).1⟩, (s.writeWord s.sp s.hl).setHL (s.readWord s.sp), _, rfl, rfl, ?_, ?_⟩
  · have hword : ((s.writeWord s.sp s.hl).setHL (s.readWord s.sp)).readWord s.sp = s.hl :=
      s.mem.readWord_writeWord_same s.sp s.hl
    simp only [State.sp_setHL, State.sp_writeWord, hword]
    simp only [State.setHL, State.writeWord, State.hiByte_hl, State.loByte_hl]
  · intro addr
    have hhl : ((s.writeWord s.sp s.hl).setHL (s.readWord s.sp)).hl = s.readWord s.sp := mkWord_hi_lo _
    rw [hhl]
    exact s.mem.readByte_writeWord_readWord s.sp s.hl addr

/-! ### Jumps -/

/-- Settles O42: a conditional jump writes `PC` by its condition. -/
theorem jumpInstructions : Obligations.JumpInstructions := by
  refine ⟨fun _ _ => ⟨rfl, rfl, rfl, rfl, rfl, rfl, rfl, rfl, rfl⟩, fun s t => ⟨rfl, ?nz, ?z, ?nc, ?c, ?p, ?m⟩⟩
  case z | c | m => exact congrArg Host.Outcome.next (s.jumpIf_eq _ t)
  case nz | nc | p =>
    simp only [exec, execJnz, execJnc, execJp, State.jumpIf_eq, State.holds, Bool.not_eq_true']

/-! ### Calls, returns and restarts -/

/-- Settles O43: a conditional call is the call where its condition holds. -/
theorem callInstructions : Obligations.CallInstructions := by
  refine ⟨fun _ _ => ⟨rfl, rfl, rfl, rfl, rfl, rfl, rfl, rfl, rfl⟩, ?_⟩
  rintro s _ t rfl
  refine ⟨rfl, ?nz, rfl, ?nc, rfl⟩
  all_goals
    simp only [exec, execCnz, execCnc, State.callIf, State.holds, Bool.not_eq_true']
    rfl

/-- Settles O44: a conditional return is the return where its condition holds. -/
theorem returnInstructions : Obligations.ReturnInstructions := by
  refine ⟨⟨rfl, rfl, rfl, rfl, rfl, rfl, rfl, rfl, rfl⟩, ?_⟩
  rintro s _ rfl
  refine ⟨rfl, ?nz, rfl, ?nc, rfl⟩
  all_goals
    simp only [exec, execRnz, execRnc, State.retIf, State.holds, Bool.not_eq_true']
    rfl

/-- Settles O45: the eight restart addresses fit in a word. -/
theorem rstAndPchl : Obligations.RstAndPchl := by
  refine ⟨⟨fun n => decodesTo_of_encode (i := .rst n) rfl rfl, rfl⟩, fun s n => ⟨_, rfl, rfl, ?_, rfl⟩⟩
  have := n.isLt
  rw [State.pc_callTo, BitVec.toNat_ofNat]
  omega

/-- A return right after a call comes back, with all but the stored bytes as before. -/
theorem State.ret_callTo (s : State) (target : Word) :
    (s.callTo target).ret = { s with mem := (s.callTo target).mem } := by
  calc (s.callTo target).ret
    _ = (s.push16 s.pc).popped.jumpTo (s.push16 s.pc).popValue := rfl
    _ = { s with mem := (s.callTo target).mem } := by rw [State.popValue_push16, State.popped_push16]; rfl

/-- Settles O46, by the return from a call. -/
theorem callThenRetComesBack : Obligations.CallThenRetComesBack :=
  fun s target => ⟨_, rfl, rfl, congrArg Host.Outcome.next (s.ret_callTo target)⟩

end Sys2Proof.Machine
end

section
/-! SUPPORT. Proofs of the statements about the ALU: O47 to O56. -/

namespace Sys2Proof.Machine

/-! ### Addition, subtraction and logic -/

/-- Settles O47: every form is `add8`, which the model's law gives in plain numbers. -/
theorem additionForms : Obligations.AdditionForms := by
  refine ⟨fun _ _ => ⟨decodesTo_of_encode rfl rfl, decodesTo_of_encode rfl rfl, rfl, rfl⟩,
    fun s r d8 => ⟨?add, ?adc, ?adi, ?aci⟩, fun a v cin hcin => ?half⟩
  case add | adc | adi | aci => exact congrArg Host.Outcome.next (s.add8_eq _ _)
  case half =>
    have h := halfCarryBit_sum a.toNat v.toNat cin hcin
    rwa [halfCarryBit, Bool.eq_iff_iff, bne_iff_ne, decide_eq_true_eq] at h

/-- Settles O48: every form is `sub8`, which stores the difference or, for CMP and CPI, only its flags. -/
theorem subtractionForms : Obligations.SubtractionForms := by
  refine ⟨fun _ _ => ⟨decodesTo_of_encode rfl rfl, decodesTo_of_encode rfl rfl, decodesTo_of_encode rfl rfl, rfl, rfl,
    rfl⟩, fun s r d8 => ⟨?sub, ?sbb, ?cmp, ?sui, ?sbi, ?cpi⟩⟩
  case sub | sbb | sui | sbi => exact congrArg Host.Outcome.next (s.sub8_store_eq _ _)
  case cmp | cpi => exact congrArg Host.Outcome.next (s.sub8_flags_eq _ _)

/-- Settles O49: every form is `logic8`. -/
theorem logicForms : Obligations.LogicForms := by
  refine ⟨fun _ _ => ⟨decodesTo_of_encode rfl rfl, decodesTo_of_encode rfl rfl, decodesTo_of_encode rfl rfl, rfl, rfl,
    rfl⟩, fun s r d8 => ⟨?ana, ?xra, ?ora, ?ani, ?xri, ?ori⟩⟩
  all_goals exact congrArg Host.Outcome.next (s.logic8_eq _)

/-! ### INR and DCR -/

/-- The flags of an increment, told by the old value. -/
theorem State.setIncDecFlags_inc (s : State) (v : Byte) :
    s.setIncDecFlags v (v + 1) =
      { s with
        zero := decide (v.toNat = 255)
        sign := decide (127 ≤ v.toNat ∧ v.toNat < 255)
        halfCarry := decide (v.toNat % 16 = 15) } := by
  have hv := v.isLt
  have hr : (v + 1).toNat = (v.toNat + 1) % 256 := BitVec.toNat_add v 1
  have hzero : decide ((v + 1).toNat = 0) = decide (v.toNat = 255) := decide_eq_decide.mpr (by omega)
  have hsign : decide (128 ≤ (v + 1).toNat) = decide (127 ≤ v.toNat ∧ v.toNat < 255) := decide_eq_decide.mpr (by omega)
  have hhalf : halfCarryBit v.toNat 1 (v + 1).toNat = decide (v.toNat % 16 = 15) := by
    rw [halfCarryBit_eq]
    exact xor_decide_eq (by omega)
  rw [State.setIncDecFlags, byte_beq_zero, byte_bit7, hzero, hsign, hhalf]

/-- The flags of a decrement, told by the old value. -/
theorem State.setIncDecFlags_dec (s : State) (v : Byte) :
    s.setIncDecFlags v (v - 1) =
      { s with
        zero := decide (v.toNat = 1)
        sign := decide (v.toNat = 0 ∨ 129 ≤ v.toNat)
        halfCarry := decide (v.toNat % 16 = 0) } := by
  have hv := v.isLt
  have hr : (v - 1).toNat = (255 + v.toNat) % 256 := BitVec.toNat_sub v 1
  have hzero : decide ((v - 1).toNat = 0) = decide (v.toNat = 1) := decide_eq_decide.mpr (by omega)
  have hsign : decide (128 ≤ (v - 1).toNat) = decide (v.toNat = 0 ∨ 129 ≤ v.toNat) := decide_eq_decide.mpr (by omega)
  have hhalf : halfCarryBit v.toNat 1 (v - 1).toNat = decide (v.toNat % 16 = 0) := by
    rw [halfCarryBit_eq]
    exact xor_decide_eq (by omega)
  rw [State.setIncDecFlags, byte_beq_zero, byte_bit7, hzero, hsign, hhalf]

/-- Settles O50, by the flags of an increment and of a decrement. -/
theorem incrementAndDecrement : Obligations.IncrementAndDecrement :=
  ⟨fun _ => ⟨decodesTo_of_encode rfl rfl, decodesTo_of_encode rfl rfl⟩,
    fun _ _ => ⟨congrArg Host.Outcome.next (State.setIncDecFlags_inc _ _),
      congrArg Host.Outcome.next (State.setIncDecFlags_dec _ _)⟩⟩

/-! ### DAA -/

theorem daaLow_eq {a : Byte} {h adj : Bool} (hadj : adj = decide (9 < a.toNat % 16 ∨ h = true)) :
    daaLow a h = (a.toNat + (if adj = true then 6 else 0), adj) := by
  by_cases hc : 9 < a.toNat % 16 ∨ h = true
  · rw [daaLow, if_pos (by simpa using hc), hadj, decide_eq_true hc, if_pos rfl]
  · rw [daaLow, if_neg (by simpa using hc), hadj, decide_eq_false hc]
    rfl

theorem daaHigh_eq {t : Nat} {c adj : Bool} (hadj : adj = decide (159 < t ∨ c = true)) :
    daaHigh t c = (t + (if adj = true then 96 else 0), adj) := by
  by_cases hc : 159 < t ∨ c = true
  · rw [daaHigh, if_pos (by simpa using hc), hadj, decide_eq_true hc, if_pos rfl]
  · rw [daaHigh, if_neg (by simpa using hc), hadj, decide_eq_false hc]
    rfl

theorem byte_ofNat_mod (n : Nat) : BitVec.ofNat 8 (n % 256) = BitVec.ofNat 8 n :=
  BitVec.eq_of_toNat_eq (by simp)

/-- Settles O51: the two steps of DAA, then `ZS` of the low byte of the second. -/
theorem decimalAdjust : Obligations.DecimalAdjust := by
  refine ⟨rfl, ?_⟩
  rintro s adj _ _ adj2 _ hadj rfl rfl hadj2 rfl
  simp only [exec, execDaa, State.decimalAdjust, daaLow_eq hadj, daaHigh_eq hadj2, byte_beq_zero, byte_bit7,
    BitVec.toNat_ofNat]
  rw [byte_ofNat_mod]

/-! #### Packed decimal addition -/

theorem bcdByte_toNat {x : Nat} (hx : x < 100) : (bcdByte x).toNat = x / 10 * 16 + x % 10 := by
  rw [bcdByte, BitVec.toNat_ofNat]
  omega

/-- A decimal digit `d` below a sum `h` of high digits: 96 takes a high digit of 10 or more out of the byte. -/
theorem packed_digits {h d : Nat} (hh : h ≤ 19) (hd : d ≤ 9) :
    (16 * h + d + (if 100 ≤ 10 * h + d then 96 else 0)) % 256 =
      (10 * h + d) % 100 / 10 * 16 + (10 * h + d) % 100 % 10 := by
  split
  · have hdec : (10 * h + d) % 100 = 10 * (h - 10) + d := by omega
    rw [hdec]
    omega
  · rw [Nat.mod_eq_of_lt (b := 100) (by omega)]
    omega

section
variable {p q : Nat} (hp : p ≤ 19) (hq : q ≤ 18)
include hp

/-- DAA's first step adjusts just where the sum `p` of the low digits (with the carry) is above 9; `q` is the sum of the
high digits, so that the binary sum is `16 q + p`. -/
theorem daaLow_adjusts_iff : (9 < (16 * q + p) % 256 % 16 ∨ 15 < p) ↔ 9 < p := by omega

include hq

/-- The second step adjusts just where the decimal sum `10 q + p` reaches 100. -/
theorem daaHigh_adjusts_iff :
    (159 < (16 * q + p) % 256 + (if 9 < p then 6 else 0) ∨ 255 < 16 * q + p) ↔ 100 ≤ 10 * q + p := by
  split <;> omega

/-- The two steps together leave the two digits of the decimal sum; the first one carries a low sum above 9. -/
theorem daa_digits :
    ((16 * q + p) % 256 + (if 9 < p then 6 else 0) + (if 100 ≤ 10 * q + p then 96 else 0)) % 256 =
      (10 * q + p) % 100 / 10 * 16 + (10 * q + p) % 100 % 10 := by
  by_cases hp9 : 9 < p
  · have hdigits := packed_digits (h := q + 1) (d := p - 10) (by omega) (by omega)
    rw [show 10 * (q + 1) + (p - 10) = 10 * q + p by omega] at hdigits
    rw [← hdigits, if_pos hp9]
    omega
  · rw [← packed_digits (h := q) (d := p) (by omega) (by omega), if_neg hp9]
    omega

end

/-- Settles O52: DAA sees the digit sums of the two operands through the binary sum that ADC leaves. -/
theorem daaCorrectsDecimalAddition : Obligations.DaaCorrectsDecimalAddition := by
  intro s t r x y hmask hx hy ha hv hadc
  obtain ⟨c, hc⟩ : ∃ c, c = if s.carry = true then 1 else 0 := ⟨_, rfl⟩
  have hc1 : c ≤ 1 := by rw [hc]; split <;> decide
  obtain ⟨p, hp⟩ : ∃ p, p = x % 10 + y % 10 + c := ⟨_, rfl⟩
  obtain ⟨q, hq⟩ : ∃ q, q = x / 10 + y / 10 := ⟨_, rfl⟩
  have hp19 : p ≤ 19 := by omega
  have hq18 : q ≤ 18 := by omega
  have hbin : s.a.toNat + (s.readOperand r).toNat + c = 16 * q + p := by
    rw [ha, hv, bcdByte_toNat hx, bcdByte_toNat hy]
    omega
  have hlow : s.a.toNat % 16 + (s.readOperand r).toNat % 16 + c = p := by
    rw [ha, hv, bcdByte_toNat hx, bcdByte_toNat hy]
    omega
  have hdec : x + y + c = 10 * q + p := by omega
  have ht : t = s.sumResult (s.readOperand r) c := by
    obtain ⟨_, hforms, _⟩ := additionForms
    obtain ⟨_, hadcForm, _⟩ := hforms s r 0
    rw [hadcForm, ← hc] at hadc
    exact (Host.Outcome.next.inj hadc).symm
  have hta : t.a.toNat = (16 * q + p) % 256 := by rw [ht, ← hbin]; exact BitVec.toNat_ofNat _ _
  have hthalf : (t.halfCarry = true) = (15 < p) := by rw [ht, ← hlow]; exact decide_eq_true_eq
  have htcarry : (t.carry = true) = (255 < 16 * q + p) := by rw [ht, ← hbin]; exact decide_eq_true_eq
  have htmask : t.params.daaMaskIntermediate = false := by rw [ht]; exact hmask
  obtain ⟨_, hform⟩ := decimalAdjust
  have hdaa := hform t _ _ _ _ _ rfl rfl rfl rfl rfl
  simp only [hta, hthalf, htcarry, htmask, daaLow_adjusts_iff hp19, decide_eq_true_eq, Bool.false_eq_true, if_false,
    daaHigh_adjusts_iff hp19 hq18, daa_digits hp19 hq18] at hdaa
  rw [← hc, hdec]
  exact ⟨_, hdaa, rfl, rfl⟩

/-! ### Complement and rotates -/

theorem byte_xor_ff (a : Byte) : a ^^^ 0xFF = BitVec.ofNat 8 (255 - a.toNat) := by
  have hff : (0xFF : Byte) = BitVec.allOnes 8 := rfl
  rw [hff, BitVec.xor_allOnes]
  apply BitVec.eq_of_toNat_eq
  rw [BitVec.toNat_not, BitVec.toNat_ofNat]
  omega

/-- Bit 0 of a byte in numbers. -/
theorem byte_bit0 (r : Byte) : r.getLsbD 0 = decide (r.toNat % 2 = 1) := Nat.testBit_zero r.toNat

/-- A left rotate in plain numbers. -/
theorem State.rotateLeft_eq (s : State) (b : Bool) :
    s.rotateLeft b =
      { s with a := BitVec.ofNat 8 (2 * s.a.toNat + flagNat b), carry := decide (128 ≤ s.a.toNat) } := by
  have hb := flagNat_le b
  rw [State.rotateLeft, byte_bit7, ← Nat.shiftLeft_add_eq_or_of_lt (by omega), Nat.shiftLeft_eq, Nat.mul_comm]

/-- A right rotate in plain numbers. -/
theorem State.rotateRight_eq (s : State) (b : Bool) :
    s.rotateRight b =
      { s with a := BitVec.ofNat 8 (s.a.toNat / 2 + 128 * flagNat b), carry := decide (s.a.toNat % 2 = 1) } := by
  have ha := s.a.isLt
  rw [State.rotateRight, byte_bit0, Nat.or_comm, Nat.shiftRight_one,
    ← Nat.shiftLeft_add_eq_or_of_lt (by omega), Nat.shiftLeft_eq, Nat.add_comm, Nat.mul_comm]

theorem flagNat_bit7 (a : Byte) : flagNat (a.getLsbD 7) = a.toNat / 128 := by
  have ha := a.isLt
  simp only [byte_bit7, flagNat, decide_eq_true_eq]
  split <;> omega

theorem flagNat_bit0 (a : Byte) : flagNat (a.getLsbD 0) = a.toNat % 2 := by
  simp only [byte_bit0, flagNat, decide_eq_true_eq]
  split <;> omega

/-- Settles O53, by the two rotates in plain numbers and the bit each form brings in. -/
theorem complementAndRotates : Obligations.ComplementAndRotates := by
  refine ⟨⟨rfl, rfl, rfl, rfl, rfl⟩, fun s => ⟨?cma, ?rlc, ?rrc, ?ral, ?rar⟩⟩
  case cma => rw [exec, execCma, byte_xor_ff]
  case rlc => rw [exec, execRlc, State.rotateLeft_eq, flagNat_bit7]
  case rrc => rw [exec, execRrc, State.rotateRight_eq, flagNat_bit0]
  case ral => rw [exec, execRal, State.rotateLeft_eq, flagNat]
  case rar => rw [exec, execRar, State.rotateRight_eq, flagNat, mul_ite, Nat.mul_one, Nat.mul_zero]

/-! #### Rotating back -/

/-- The bit a left rotate brings in is bit 0 of its result. -/
theorem State.a_rotateLeft_bit0 (s : State) (b : Bool) : (s.rotateLeft b).a.getLsbD 0 = b := by
  rw [byte_bit0, State.rotateLeft_eq, BitVec.toNat_ofNat]
  cases b <;> simp [flagNat]

/-- The bit a right rotate brings in is bit 7 of its result. -/
theorem State.a_rotateRight_bit7 (s : State) (b : Bool) : (s.rotateRight b).a.getLsbD 7 = b := by
  have ha := s.a.isLt
  rw [byte_bit7, State.rotateRight_eq, BitVec.toNat_ofNat]
  cases b <;> simp [flagNat] <;> omega

/-- Rotating right with the bit a left rotate took out gives `A` back, and the bit that came in is the carry. -/
theorem State.rotateRight_rotateLeft (s : State) (b : Bool) :
    (s.rotateLeft b).rotateRight (s.a.getLsbD 7) = { s with carry := b } := by
  have ha := s.a.isLt
  have hb := flagNat_le b
  have hcarry : ((s.rotateLeft b).rotateRight (s.a.getLsbD 7)).carry = b := s.a_rotateLeft_bit0 b
  have hacc : ((s.rotateLeft b).rotateRight (s.a.getLsbD 7)).a = s.a := by
    apply BitVec.eq_of_toNat_eq
    simp only [State.rotateRight_eq, State.rotateLeft_eq, flagNat_bit7, BitVec.toNat_ofNat]
    omega
  calc (s.rotateLeft b).rotateRight (s.a.getLsbD 7)
    _ = { s with
          a := ((s.rotateLeft b).rotateRight (s.a.getLsbD 7)).a
          carry := ((s.rotateLeft b).rotateRight (s.a.getLsbD 7)).carry } := rfl
    _ = { s with carry := b } := by rw [hacc, hcarry]

/-- Rotating left with the bit a right rotate took out gives `A` back, and the bit that came in is the carry. -/
theorem State.rotateLeft_rotateRight (s : State) (b : Bool) :
    (s.rotateRight b).rotateLeft (s.a.getLsbD 0) = { s with carry := b } := by
  have ha := s.a.isLt
  have hb := flagNat_le b
  have hcarry : ((s.rotateRight b).rotateLeft (s.a.getLsbD 0)).carry = b := s.a_rotateRight_bit7 b
  have hacc : ((s.rotateRight b).rotateLeft (s.a.getLsbD 0)).a = s.a := by
    apply BitVec.eq_of_toNat_eq
    simp only [State.rotateRight_eq, State.rotateLeft_eq, flagNat_bit0, BitVec.toNat_ofNat]
    omega
  calc (s.rotateRight b).rotateLeft (s.a.getLsbD 0)
    _ = { s with
          a := ((s.rotateRight b).rotateLeft (s.a.getLsbD 0)).a
          carry := ((s.rotateRight b).rotateLeft (s.a.getLsbD 0)).carry } := rfl
    _ = { s with carry := b } := by rw [hacc, hcarry]

/-- Settles O54: the carry RAL and RAR leave is the bit that left `A`; RLC and RRC bring in the bit they take out. -/
theorem rotatesUndoEachOther : Obligations.RotatesUndoEachOther := by
  refine fun s => ⟨⟨_, rfl, ?ral⟩, ⟨_, rfl, ?rar⟩, ⟨_, _, rfl, rfl, ?rlc⟩, ⟨_, _, rfl, rfl, ?rrc⟩, ⟨_, rfl, ?cma⟩⟩
  case ral => exact congrArg Host.Outcome.next (s.rotateRight_rotateLeft s.carry)
  case rar => exact congrArg Host.Outcome.next (s.rotateLeft_rotateRight s.carry)
  case rlc => rw [State.a_rotateLeft_bit0, State.rotateRight_rotateLeft]
  case rrc => rw [State.a_rotateRight_bit7, State.rotateLeft_rotateRight]
  case cma => rw [exec, execCma, BitVec.xor_assoc, BitVec.xor_self, BitVec.xor_zero]

/-! ### Flag control -/

/-- Settles O55, each instruction by its arm of `exec`. -/
theorem stcDiEi : Obligations.StcDiEi := ⟨⟨rfl, rfl, rfl⟩, fun _ => ⟨rfl, rfl, rfl⟩⟩

/-- Settles O56, by the two values of the parameter. -/
theorem cmcClearsOrComplements : Obligations.CmcClearsOrComplements := by
  refine ⟨rfl, fun s => ⟨fun h => ?_, fun h => ?_⟩⟩
  · rw [exec, execCmc, if_neg (by simp [h])]
  · rw [exec, execCmc, if_pos h]

end Sys2Proof.Machine
end

section
/-! SUPPORT. Proofs of the statements about the ports (O57) and data movement (O58 to O60). -/

namespace Sys2Proof.Machine

/-! ### Ports -/

/-- Settles O57: the byte IN loads is the environment's answer. -/
theorem portInstructions : Obligations.PortInstructions := by
  refine ⟨fun _ => ⟨rfl, rfl⟩, fun s port => ⟨rfl, s.portAnswer port, rfl, fun w rest h => ?_, fun h => ?_⟩⟩
  · rw [State.portAnswer, h]
  · rw [State.portAnswer, h]

/-! ### Moves, loads and stores -/

/-- `01 110 110` apart, every pair of operands is a MOV. -/
theorem wellFormed_mov {dst src : Operand8} (h : ¬(dst = .m ∧ src = .m)) : WellFormed (.mov dst src) := by
  simpa [WellFormed, wellFormed] using not_and_or.mp h

/-- Settles O58: each form writes its operand or its pair. -/
theorem moveInstructions : Obligations.MoveInstructions := by
  refine ⟨⟨rfl, fun _ _ h => decodesTo_of_encode (wellFormed_mov h) rfl, fun _ _ => decodesTo_of_encode rfl rfl,
    fun rp lo hi => decodesTo_of_encode rfl ?_⟩, fun _ _ _ _ _ => ⟨rfl, rfl, rfl, rfl, rfl, rfl, rfl⟩⟩
  rw [encode, encodeF3, loByte_mkWord, hiByte_mkWord]

/-- Settles O59: a word in memory is its two bytes, and so is `HL`. -/
theorem loadAndStoreInstructions : Obligations.LoadAndStoreInstructions := by
  refine ⟨⟨fun _ _ => ⟨rfl, rfl, rfl, rfl⟩, rfl, rfl, rfl, rfl⟩,
    fun s a => ⟨rfl, rfl, ?lhld, ?shld, rfl, rfl, rfl, rfl⟩⟩
  case lhld =>
    simp only [exec, execLhld, State.setHL, State.readWord, Memory.hiByte_readWord, Memory.loByte_readWord]
  case shld =>
    simp only [exec, execShld, State.writeWord, Memory.writeWord, State.hiByte_hl, State.loByte_hl]

/-! ### The 16-bit arithmetic -/

@[simp] theorem State.readPair_writePair_same (s : State) (rp : RegPair) (v : Word) :
    (s.writePair rp v).readPair rp = v := by
  cases rp with
  | sp => rfl
  | _ => exact mkWord_hi_lo v

/-- DAD writes the halves of the sum and its carry. -/
theorem State.hl_addToHL (s : State) (v : Word) : (s.addToHL v).hl = BitVec.ofNat 16 (s.hl.toNat + v.toNat) :=
  mkWord_hi_lo _

/-- Settles O60: the pair reads back as what was written to it. -/
theorem pairArithmetic : Obligations.PairArithmetic := by
  refine ⟨fun _ => ⟨decodesTo_of_encode rfl rfl, decodesTo_of_encode rfl rfl, decodesTo_of_encode rfl rfl⟩,
    fun s rp => ⟨_, _, _, ⟨rfl, ?inx, ?inxFrame⟩, ⟨rfl, ?dcx, ?dcxFrame⟩, ⟨rfl, ?dad, rfl⟩⟩⟩
  case inx => rw [State.readPair_writePair_same]; exact BitVec.toNat_add _ 1
  case dcx => rw [State.readPair_writePair_same, Nat.add_comm]; exact BitVec.toNat_sub _ 1
  case inxFrame | dcxFrame => rw [State.readPair_writePair_same]
  case dad => rw [State.hl_addToHL, BitVec.toNat_ofNat]

end Sys2Proof.Machine
end
